-- ==== Sys2Proof/Word.lean ====
section
/-! DEFINITION. The word types of SX127x-SEQ: the bytes of a bus frame, the 7-bit register address, the 16-bit frame and
the 32-bit command word (spec 20_memory.md R48, 30_encoding.md R70, R73). -/

namespace Sys2Proof

/-- A byte (00_scope.md R8: "A byte is 8 bits"). -/
abbrev Byte := BitVec 8

/-- A chip register address, 0x00..0x7F (20_memory.md R48). -/
abbrev RegAddr := BitVec 7

/-- A bus frame as one number, byte 0 in bits 15:8 (30_encoding.md R70). -/
abbrev FrameWord := BitVec 16

/-- A host command word (30_encoding.md R73). -/
abbrev Word := BitVec 32

end Sys2Proof
end

