-- ==== Sys2Proof/Config.lean ====
section
/-! DEFINITION. What an implementation of SX127x-SEQ fixes (the parameter record `ChipMap` and the block parameters of
00_scope.md R6, R7, carried in State as data so that a claim about every state is a claim about every parameter choice)
and the values nothing fixes (opaque constants). -/

namespace Sys2Proof

/-- The two open widths of 00_scope.md R7: of the frequency operand with the register `FREQ`, and of the timeout operand. Both
operands stand in the 24-bit operand field (30_encoding.md R73, R74), so a width above 24 admits what 24 admits. -/
structure Widths where
  /-- `FREQ_W`. -/
  freqW : Nat
  /-- `TIMEOUT_W`. -/
  timeoutW : Nat
  deriving DecidableEq, Repr

/-- The widths R7 gives, which spec/opcode_table.json has too. -/
def defaultWidths : Widths where
  freqW := 10
  timeoutW := 24

/-- How the low-data-rate threshold is evaluated (00_scope.md R7 `LDO_ARITH`; 42_mode_config.md R130). -/
inductive LdoArith where
  /-- Rational arithmetic, `1000 · 2^sf > 16 · hz`. -/
  | exact
  /-- Two integer divisions, `1000 div (hz div 2^sf) > 16`. -/
  | truncating
  deriving DecidableEq, Repr

/-- One triple of a field-write list: address, mask, value (42_mode_config.md R134). -/
structure FieldTriple where
  addr : RegAddr
  mask : Byte
  val : Byte
  deriving DecidableEq, Repr

/-- `PREAMBLE_SEQ(len)` (R135), an OPEN parameter: a total function of the 16-bit length, as plain data. -/
inductive PreambleSeq where
  /-- The default: high byte to `A_PREAMBLE_MSB`, low byte to `A_PREAMBLE_LSB`, both whole-byte writes. -/
  | registerPair
  /-- Any other function, written out: entry `len` is the list for that length. -/
  | table (rows : List (List FieldTriple))
  deriving DecidableEq, Repr

/-- `INVERT_IQ_SEQ(e)` (R137), an OPEN parameter. -/
inductive InvertIqSeq where
  /-- The default: bit 6 of `A_INVERT_IQ` takes `e`. -/
  | bitSix
  /-- Any other pair of lists. -/
  | lists (off on : List FieldTriple)
  deriving DecidableEq, Repr

/-- `DIO0_TXDONE_SEQ` (R140), an OPEN parameter. -/
inductive Dio0Seq where
  /-- The default: 0x40 to `A_DIO_MAPPING_1`. -/
  | mappingByte
  /-- Any other list. -/
  | list (seq : List FieldTriple)
  deriving DecidableEq, Repr

/-- `PA_MAP(p)` (R138), an OPEN total function from 0..255 to a byte. -/
inductive PaMap where
  /-- The default `0x80 | (clamp(p, 2, 17) − 2)`. -/
  | boost
  /-- Any other function, written out: entry `p` is the byte for power operand `p`. -/
  | table (bytes : List Byte)
  deriving DecidableEq, Repr

/-- The addresses of the chip's registers (00_scope.md R6, the `A_` parameters). `A_FRF_MID` and `A_FRF_LSB` are
`frfMsb + 1` and `frfMsb + 2`. -/
structure RegMap where
  fifo : RegAddr
  opMode : RegAddr
  frfMsb : RegAddr
  paConfig : RegAddr
  ocp : RegAddr
  lna : RegAddr
  fifoAddrPtr : RegAddr
  fifoTxBase : RegAddr
  fifoRxBase : RegAddr
  fifoRxCurrent : RegAddr
  irqFlags : RegAddr
  rxNbBytes : RegAddr
  pktSnr : RegAddr
  pktRssi : RegAddr
  mc1 : RegAddr
  mc2 : RegAddr
  preambleMsb : RegAddr
  preambleLsb : RegAddr
  payloadLength : RegAddr
  mc3 : RegAddr
  freqErrorMsb : RegAddr
  freqErrorMid : RegAddr
  freqErrorLsb : RegAddr
  detectOpt : RegAddr
  detectThr : RegAddr
  invertIq : RegAddr
  dioMapping1 : RegAddr
  version : RegAddr
  crcAddr : RegAddr
  deriving DecidableEq, Repr

/-- `MODE_BITS(m)` for each of the five operating modes (00_scope.md R6). -/
structure ModeBits where
  sleep : Byte
  standby : Byte
  transmit : Byte
  receiveContinuous : Byte
  receiveSingle : Byte
  deriving DecidableEq, Repr

/-- The masks, constants and open functions of `ChipMap` (00_scope.md R6). -/
structure ChipMap where
  reg : RegMap
  versionExpected : Byte
  lrBit : Byte
  modeBits : ModeBits
  modeMask : Byte
  hdrMask : Byte
  crMask : Byte
  crShift : Nat
  crcMask : Byte
  ldoMask : Byte
  initMc3Value : Byte
  lnaBoostMask : Byte
  ocpEnable : Byte
  ocpTrimMask : Byte
  feMsbMask : Byte
  paMap : PaMap
  preambleSeq : PreambleSeq
  invertIqSeq : InvertIqSeq
  dio0TxDoneSeq : Dio0Seq
  deriving DecidableEq, Repr

/-- Everything an implementation fixes: the chip map and the four open block parameters of 00_scope.md R7. DESIGN CHOICE (log
entry 7). -/
structure BlockConfig where
  chip : ChipMap
  /-- `FREQ_W` and `TIMEOUT_W`. -/
  widths : Widths
  /-- `POLL_UNIT_TICKS`. -/
  pollUnitTicks : Nat
  /-- `LDO_ARITH`. -/
  ldoArith : LdoArith
  deriving DecidableEq, Repr

/-- FREE VALUE. Whether the n-th pin operation that no scripted reply answers succeeds (20_memory.md R40: "Its outcome is
supplied from outside the block"). -/
opaque Config.freePin : Nat → Bool

/-- FREE VALUE. The outcome of the n-th transfer that no scripted reply answers: two bytes, or a fault (20_memory.md R41, R52:
"The bytes (r0, r1) of every Xfer are free inputs of the step"). -/
opaque Config.freeXfer : Nat → Option (Byte × Byte)

/-- FREE VALUE. The content of `TXBUF[i]` while no host write has reached it since the block's k-th reset
(10_state.md R35: "unspecified"). -/
opaque Config.unwrittenTx : Nat → Nat → Byte

/-- FREE VALUE. The content of `RXBUF[i]` while no read-out has reached it since the block's k-th reset (10_state.md R20, R35). -/
opaque Config.unwrittenRx : Nat → Nat → Byte

end Sys2Proof
end

