-- ==== Sys2Proof/Syntax.lean ====
section
/-! DEFINITION. The instructions of SX127x-SEQ: the 27 host commands of 30_encoding.md R76 and the two bus frames of R70.
One constructor per row of spec/opcode_table.json, its operands at the widths of R74. -/

namespace Sys2Proof

/-- A host command (R76) or a bus frame (R70), with the operand fields of R74; an operand of an open width (00_scope.md R7) has the field's 24
bits here, and WellFormed has its width. -/
inductive Instr where
  /-- `RD_REG a` (40_register_access.md R100). -/
  | rdReg (a : RegAddr)
  /-- `WR_REG a, v` (R101). -/
  | wrReg (a : RegAddr) (v : Byte)
  /-- `INIT f` (41_initialization.md R110), `f` of `FREQ_W` bits in the operand field. -/
  | init (f : BitVec 24)
  /-- `SET_MODE m` (42_mode_config.md R122). -/
  | setMode (m : BitVec 3)
  /-- `SET_HEADER h` (R123). -/
  | setHeader (h : BitVec 1)
  /-- `SET_FREQUENCY f` (R125), `f` of `FREQ_W` bits in the operand field. -/
  | setFrequency (f : BitVec 24)
  /-- `SET_SF x` (R126). -/
  | setSf (x : Byte)
  /-- `SET_BW hz` (R127). -/
  | setBw (hz : BitVec 24)
  /-- `SET_CR d` (R128). -/
  | setCr (d : Byte)
  /-- `SET_PREAMBLE len` (R135). -/
  | setPreamble (len : BitVec 16)
  /-- `SET_CRC e` (R136). -/
  | setCrc (e : BitVec 1)
  /-- `SET_INVERT_IQ e` (R137). -/
  | setInvertIq (e : BitVec 1)
  /-- `SET_TX_POWER p` (R138). -/
  | setTxPower (p : Byte)
  /-- `SET_OCP ma` (R132). -/
  | setOcp (ma : Byte)
  /-- `SET_DIO0_TX_DONE` (R140). -/
  | setDio0TxDone
  /-- `GET_SF` (43_getters.md R150). -/
  | getSf
  /-- `GET_BW` (R151). -/
  | getBw
  /-- `GET_RSSI` (R152). -/
  | getRssi
  /-- `GET_SNR` (R153). -/
  | getSnr
  /-- `GET_FREQ_ERROR` (R154). -/
  | getFreqError
  /-- `TRANSMIT` (44_packet_io.md R161). -/
  | transmit
  /-- `POLL_IRQ` (R163). -/
  | pollIrq
  /-- `POLL_IRQ_T n` (R164), `n` of `TIMEOUT_W` bits in the operand field. -/
  | pollIrqT (n : BitVec 24)
  /-- `READ_PACKET` (R165). -/
  | readPacket
  /-- `IRQ_FLAGS` (R166). -/
  | irqFlags
  /-- `CLEAR_IRQ` (R167). -/
  | clearIrq
  /-- `IS_PACKET_READY` (R168). -/
  | isPacketReady
  /-- The read frame `0aaaaaaa 00000000` the sequencer sends for `RD(a)` (20_memory.md R43, 30_encoding.md R70). -/
  | busReadFrame (a : RegAddr)
  /-- The write frame `1aaaaaaa dddddddd` the sequencer sends for `WR(a, d)` (20_memory.md R44, 30_encoding.md R70). -/
  | busWriteFrame (a : RegAddr) (d : Byte)
  deriving DecidableEq, Repr

end Sys2Proof
end

