-- ==== Sys2Proof/WellFormed.lean ====
section
/-! DEFINITION. Which instructions the encodings admit: every operand of a fixed width has it by its type, so the checks left
are `SET_MODE`'s operand, 0..4, and the open widths `FREQ_W` and `TIMEOUT_W` (00_scope.md R7; 30_encoding.md R74, R75, R77). -/

namespace Sys2Proof

/-- 30_encoding.md R77: "`SET_MODE` with `m ∈ {5, 6, 7}` is illegal", and the bits above an operand's width must be zero (R74,
R76); every other operand field takes every value. -/
def Instr.wf (ws : Widths) : Instr → Bool
  | .setMode m => m.toNat ≤ 4
  | .rdReg _ => true
  | .wrReg _ _ => true
  | .init f => f.toNat < 2 ^ ws.freqW
  | .setHeader _ => true
  | .setFrequency f => f.toNat < 2 ^ ws.freqW
  | .setSf _ => true
  | .setBw _ => true
  | .setCr _ => true
  | .setPreamble _ => true
  | .setCrc _ => true
  | .setInvertIq _ => true
  | .setTxPower _ => true
  | .setOcp _ => true
  | .setDio0TxDone => true
  | .getSf => true
  | .getBw => true
  | .getRssi => true
  | .getSnr => true
  | .getFreqError => true
  | .transmit => true
  | .pollIrq => true
  | .pollIrqT n => n.toNat < 2 ^ ws.timeoutW
  | .readPacket => true
  | .irqFlags => true
  | .clearIrq => true
  | .isPacketReady => true
  | .busReadFrame _ => true
  | .busWriteFrame _ _ => true

/-- The instruction is one the encodings of 30_encoding.md R70, R76 express at these widths. -/
abbrev WellFormed (ws : Widths) (i : Instr) : Prop := i.wf ws = true

end Sys2Proof
end

