-- ==== Sys2Proof/Decode.lean ====
section
/-! DEFINITION. Decoding and encoding of command words and bus frames (30_encoding.md R70 to R77). Decoding is total on all
2^32 command words and all 2^16 frame words and rejects by name. -/

namespace Sys2Proof

/-- Why a word is no instruction. Decoding raises it; safe, since the spec gives such a word no effect of its own. -/
inductive Reject where
  /-- An opcode not in the map of 30_encoding.md R76. -/
  | unassignedOpcode
  /-- A must-be-zero bit of R76 is set. -/
  | reservedBits
  /-- `SET_MODE` with an operand 5..7 (R75). -/
  | modeOutOfRange
  /-- A read frame whose second byte is not 0x00; R71: "is never sent by the block". -/
  | readFrameData
  deriving DecidableEq, Repr

/-- `op`, bits 31:24 of the command word (R73). -/
def opcodeOf (w : Word) : Byte := w.extractLsb' 24 8

/-- The must-be-zero test of R75: the instruction if no bit of `mbz` is set in `w`. -/
def unlessReserved (w mbz : Word) (i : Instr) : Except Reject Instr :=
  if w &&& mbz = 0 then .ok i else .error .reservedBits

/-- The must-be-zero mask of an operand of `k` bits: the bits `k` to 23 (R74, R76: 0x00FFFC00 for `FREQ_W` = 10, none for
`TIMEOUT_W` = 24). -/
def mbzAbove (k : Nat) : Word := (BitVec.allOnes 24 <<< k).setWidth 32

/-- `SET_MODE` (R75): the must-be-zero bits first, then the operand's range. -/
def decodeSetMode (w : Word) : Except Reject Instr :=
  if w &&& 0x00FFFFF8#32 = 0 then
    if (w.extractLsb' 0 3).toNat ≤ 4 then .ok (.setMode (w.extractLsb' 0 3)) else .error .modeOutOfRange
  else .error .reservedBits

/-- The decoder of command words: opcode map and must-be-zero masks of R76, operand positions of R74,
at the open widths `ws` (00_scope.md R7). -/
def decodeCommand (ws : Widths) (w : Word) : Except Reject Instr :=
  match opcodeOf w with
  | 0x01#8 => unlessReserved w 0x00FFFF80#32 (.rdReg (w.extractLsb' 0 7))
  | 0x02#8 => unlessReserved w 0x00FF8000#32 (.wrReg (w.extractLsb' 8 7) (w.extractLsb' 0 8))
  | 0x10#8 => unlessReserved w (mbzAbove ws.freqW) (.init (w.extractLsb' 0 24))
  | 0x20#8 => decodeSetMode w
  | 0x21#8 => unlessReserved w 0x00FFFFFE#32 (.setHeader (w.extractLsb' 0 1))
  | 0x22#8 => unlessReserved w (mbzAbove ws.freqW) (.setFrequency (w.extractLsb' 0 24))
  | 0x23#8 => unlessReserved w 0x00FFFF00#32 (.setSf (w.extractLsb' 0 8))
  | 0x24#8 => unlessReserved w 0x00000000#32 (.setBw (w.extractLsb' 0 24))
  | 0x25#8 => unlessReserved w 0x00FFFF00#32 (.setCr (w.extractLsb' 0 8))
  | 0x26#8 => unlessReserved w 0x00FF0000#32 (.setPreamble (w.extractLsb' 0 16))
  | 0x27#8 => unlessReserved w 0x00FFFFFE#32 (.setCrc (w.extractLsb' 0 1))
  | 0x28#8 => unlessReserved w 0x00FFFFFE#32 (.setInvertIq (w.extractLsb' 0 1))
  | 0x29#8 => unlessReserved w 0x00FFFF00#32 (.setTxPower (w.extractLsb' 0 8))
  | 0x2A#8 => unlessReserved w 0x00FFFF00#32 (.setOcp (w.extractLsb' 0 8))
  | 0x2B#8 => unlessReserved w 0x00FFFFFF#32 .setDio0TxDone
  | 0x30#8 => unlessReserved w 0x00FFFFFF#32 .getSf
  | 0x31#8 => unlessReserved w 0x00FFFFFF#32 .getBw
  | 0x32#8 => unlessReserved w 0x00FFFFFF#32 .getRssi
  | 0x33#8 => unlessReserved w 0x00FFFFFF#32 .getSnr
  | 0x34#8 => unlessReserved w 0x00FFFFFF#32 .getFreqError
  | 0x40#8 => unlessReserved w 0x00FFFFFF#32 .transmit
  | 0x41#8 => unlessReserved w 0x00FFFFFF#32 .pollIrq
  | 0x42#8 => unlessReserved w (mbzAbove ws.timeoutW) (.pollIrqT (w.extractLsb' 0 24))
  | 0x43#8 => unlessReserved w 0x00FFFFFF#32 .readPacket
  | 0x44#8 => unlessReserved w 0x00FFFFFF#32 .irqFlags
  | 0x45#8 => unlessReserved w 0x00FFFFFF#32 .clearIrq
  | 0x46#8 => unlessReserved w 0x00FFFFFF#32 .isPacketReady
  | _ => .error .unassignedOpcode

/-- The decoder of bus frames (R70): bit 15 is the direction, bits 14:8 the address, bits 7:0 the data byte. -/
def decodeFrame (f : FrameWord) : Except Reject Instr :=
  if f.getLsbD 15 then .ok (.busWriteFrame (f.extractLsb' 8 7) (f.extractLsb' 0 8))
  else if f.extractLsb' 0 8 = 0#8 then .ok (.busReadFrame (f.extractLsb' 8 7))
  else .error .readFrameData

/-- The encoded form of an instruction: a command word, or a bus frame with byte 0 in bits 15:8. -/
inductive Code where
  /-- A 32-bit command word (R73). -/
  | command (w : Word)
  /-- A 16-bit bus frame (R70). -/
  | frame (f : FrameWord)
  deriving DecidableEq, Repr

/-- The decoder on either form of code. -/
def decode (ws : Widths) : Code → Except Reject Instr
  | .command w => decodeCommand ws w
  | .frame f => decodeFrame f

/-- Byte 0 of a read frame: bit 7 clear, bits 6:0 the address (R70; 20_memory.md R43). -/
def readHeader (a : RegAddr) : Byte := a.setWidth 8

/-- Byte 0 of a write frame: bit 7 set, bits 6:0 the address (R70; 20_memory.md R44). -/
def writeHeader (a : RegAddr) : Byte := 0x80#8 ||| a.setWidth 8

/-- A command word from its opcode and its 24-bit operand field (R73). -/
def commandWord (op : Byte) (arg : BitVec 24) : Code := .command (op ++ arg)

/-- The encoder: "`op << 24 | operand bits`" (R88) with the opcodes of R76 and the fields of R74, and the frames of R70. -/
def encode : Instr → Code
  | .rdReg a => commandWord 0x01 (a.setWidth 24)
  | .wrReg a v => commandWord 0x02 ((a ++ v).setWidth 24)
  | .init f => commandWord 0x10 f
  | .setMode m => commandWord 0x20 (m.setWidth 24)
  | .setHeader h => commandWord 0x21 (h.setWidth 24)
  | .setFrequency f => commandWord 0x22 f
  | .setSf x => commandWord 0x23 (x.setWidth 24)
  | .setBw hz => commandWord 0x24 hz
  | .setCr d => commandWord 0x25 (d.setWidth 24)
  | .setPreamble len => commandWord 0x26 (len.setWidth 24)
  | .setCrc e => commandWord 0x27 (e.setWidth 24)
  | .setInvertIq e => commandWord 0x28 (e.setWidth 24)
  | .setTxPower p => commandWord 0x29 (p.setWidth 24)
  | .setOcp ma => commandWord 0x2A (ma.setWidth 24)
  | .setDio0TxDone => commandWord 0x2B 0
  | .getSf => commandWord 0x30 0
  | .getBw => commandWord 0x31 0
  | .getRssi => commandWord 0x32 0
  | .getSnr => commandWord 0x33 0
  | .getFreqError => commandWord 0x34 0
  | .transmit => commandWord 0x40 0
  | .pollIrq => commandWord 0x41 0
  | .pollIrqT n => commandWord 0x42 n
  | .readPacket => commandWord 0x43 0
  | .irqFlags => commandWord 0x44 0
  | .clearIrq => commandWord 0x45 0
  | .isPacketReady => commandWord 0x46 0
  | .busReadFrame a => .frame (readHeader a ++ 0x00#8)
  | .busWriteFrame a d => .frame (writeHeader a ++ d)

/-- The instruction the decoder reads from a table row's bits: 32 bits are a command word, 16 bits a bus frame
(spec/opcode_table.json numbers both with bit 0 the least significant bit of the whole word), at the widths the
table has. -/
def decodeTableWord (nbits w : Nat) : Option Instr :=
  if nbits = 32 then (decodeCommand defaultWidths (BitVec.ofNat 32 w)).toOption
  else if nbits = 16 then (decodeFrame (BitVec.ofNat 16 w)).toOption
  else none

end Sys2Proof
end

