-- ==== Sys2Proof/Machine/Params.lean ====
section
/-! DEFINITION. The default parameter record of 00_scope.md R6, R7 (PRESUMED, the SX1276 family's published map, log entry 2)
and the constants the source fixes. -/

namespace Sys2Proof.Machine

/-- The default register addresses of R6. PRESUMED: family SX1276/77/78/79 (log entry 2). -/
def defaultRegMap : RegMap where
  fifo := 0x00
  opMode := 0x01
  frfMsb := 0x06
  paConfig := 0x09
  ocp := 0x0B
  lna := 0x0C
  fifoAddrPtr := 0x0D
  fifoTxBase := 0x0E
  fifoRxBase := 0x0F
  fifoRxCurrent := 0x10
  irqFlags := 0x12
  rxNbBytes := 0x13
  pktSnr := 0x19
  pktRssi := 0x1A
  mc1 := 0x1D
  mc2 := 0x1E
  preambleMsb := 0x20
  preambleLsb := 0x21
  payloadLength := 0x22
  mc3 := 0x26
  freqErrorMsb := 0x28
  freqErrorMid := 0x29
  freqErrorLsb := 0x2A
  detectOpt := 0x31
  detectThr := 0x37
  invertIq := 0x33
  dioMapping1 := 0x40
  version := 0x42
  crcAddr := 0x1E

/-- The default `ChipMap` of R6. PRESUMED: family SX1276/77/78/79 (log entry 2). -/
def defaultChipMap : ChipMap where
  reg := defaultRegMap
  versionExpected := 0x12
  lrBit := 0x80
  modeBits := { sleep := 0x00, standby := 0x01, transmit := 0x03, receiveContinuous := 0x05, receiveSingle := 0x06 }
  modeMask := 0x07
  hdrMask := 0x01
  crMask := 0x0E
  crShift := 1
  crcMask := 0x04
  ldoMask := 0x08
  initMc3Value := 0x04
  lnaBoostMask := 0x03
  ocpEnable := 0x20
  ocpTrimMask := 0x1F
  feMsbMask := 0x07
  paMap := .boost
  preambleSeq := .registerPair
  invertIqSeq := .bitSix
  dio0TxDoneSeq := .mappingByte

/-- The default configuration: `FREQ_W` = 10, `TIMEOUT_W` = 24, `POLL_UNIT_TICKS` = 1 and `LDO_ARITH` = exact
(R7). -/
def defaultConfig : BlockConfig where
  chip := defaultChipMap
  widths := defaultWidths
  pollUnitTicks := 1
  ldoArith := .exact

/-- `RESET_HOLD_MS` (R7). -/
def resetHoldMs : Nat := 10

/-- `POLL_IDLE_MS` (R7). -/
def pollIdleMs : Nat := 100

/-- `POLL_TICK_MS` (R7). -/
def pollTickMs : Nat := 1

/-- `BUF_LEN` (R7). -/
def bufLen : Nat := 255

/-- `F_XTAL` in hertz (R6). -/
def fXtal : Nat := 32000000

/-- `RSSI_OFFSET` (R6). -/
def rssiOffset : Int := 157

/-- `IRQ_RX_DONE_BIT` (R6). -/
def irqRxDoneBit : Nat := 6

/-- `BW_TABLE`, the bandwidths in hertz by index 0..8 (R6). -/
def bwTable : List Nat := [7800, 10400, 15600, 20800, 31250, 41700, 62500, 125000, 250000]

/-- `DET_SF6`, the bytes for `A_DETECT_OPT` and `A_DETECT_THR` at spreading factor 6 (R6, 30_encoding.md R86). -/
def detSf6 : Byte × Byte := (0xC5, 0x0C)

/-- `DET_OTHER`, the same for spreading factors 7..12. -/
def detOther : Byte × Byte := (0xC3, 0x0A)

end Sys2Proof.Machine
end

