-- ==== Sys2Proof/Machine/State.lean ====
section
/-! DEFINITION. The state of SX127x-SEQ (10_state.md R11 to R22) with the inputs still to come (the host's operations, the
pins' and the bus's replies) and the observable record (the trace of 00_scope.md R8); the reasons a step can stop; reset. -/

namespace Sys2Proof.Machine

/-- `LIFE` (10_state.md R12). -/
inductive Life where
  | poweredUnknown
  | resetting
  | versionCheck
  | configuring
  | ready
  | failed
  deriving DecidableEq, Repr

/-- The five operating modes cached in `MODE` (10_state.md R14). -/
inductive Mode where
  | sleep
  | standby
  | transmit
  | receiveContinuous
  | receiveSingle
  deriving DecidableEq, Repr

/-- The header mode cached in `HDR` (10_state.md R15). -/
inductive HeaderMode where
  | explicit
  | implicit
  deriving DecidableEq, Repr

/-- The two output pins (20_memory.md R40). -/
inductive Pin where
  | cs
  | reset
  deriving DecidableEq, Repr

/-- A pin level (20_memory.md R40). -/
inductive Level where
  | low
  | high
  deriving DecidableEq, Repr

/-- What the block last commanded on a pin (10_state.md R22). -/
inductive Shadow where
  | high
  | low
  | unknown
  deriving DecidableEq, Repr

/-- One event of the trace with its outcome (00_scope.md R8). -/
inductive Event where
  /-- `Pin(p, level)`; `ok` is false when the pin operation failed. -/
  | pin (p : Pin) (level : Level) (ok : Bool)
  /-- `Xfer(b0, b1)`; the reply is `(r0, r1)`, or none when the transfer failed. -/
  | xfer (b0 b1 : Byte) (reply : Option (Byte × Byte))
  /-- `Delay(n)`, `n` in milliseconds. -/
  | delay (n : Nat)
  deriving DecidableEq, Repr

/-- The outcome the platform supplies for one primitive (20_memory.md R40, R41, R42). -/
inductive Reply where
  /-- A pin operation succeeded (true) or failed (false). -/
  | pin (ok : Bool)
  /-- A transfer returned `(r0, r1)`, or failed. -/
  | xfer (r : Option (Byte × Byte))
  /-- A delay returned (R42: "it always returns"). -/
  | delay
  deriving DecidableEq, Repr

/-- The errors of 60_exceptions.md R180. -/
inductive Err where
  | chipSelectPin
  | resetPin
  | busTransport
  | versionMismatch (observed : Byte)
  | receiveTimeout
  /-- Reserved: nothing raises it (R187). -/
  | transmitInProgress
  | illegalCommand
  | notReady
  | bandwidthUnknown (index : Byte)
  deriving DecidableEq, Repr

/-- The registers the host port reads (10_state.md R34). -/
inductive HostReg where
  | life
  | busy
  | status
  | result
  | mode
  | hdr
  | freq
  | txlen
  | rxlen
  deriving DecidableEq, Repr

/-- The two buffers of the host port (10_state.md R34). -/
inductive HostBuf where
  | tx
  | rx
  deriving DecidableEq, Repr

/-- What reaches the block from its host side: the operations of 10_state.md R34, the block reset of
70_reset_and_hazards.md R210, and the passing of one primitive between them. -/
inductive HostOp where
  /-- `Issue(w)`. -/
  | issue (w : Word)
  /-- `WriteBuf(TXBUF, i, b)`. -/
  | writeTx (i b : Byte)
  /-- `WriteReg(TXLEN, b)`. -/
  | writeTxLen (b : Byte)
  /-- `ReadReg(r)`. -/
  | readReg (r : HostReg)
  /-- `ReadBuf(TXBUF or RXBUF, i)`. -/
  | readBuf (which : HostBuf) (i : Byte)
  /-- Block reset. -/
  | blockReset
  /-- MODEL'S OWN, no operation of the port: the host lets one primitive of the running command go by, so that the list says at
  which primitive boundary its next operation lands. DESIGN CHOICE (log entry 20). -/
  | wait
  deriving DecidableEq, Repr

/-- The value of a field write: known when the micro-sequence starts, or computed from the block's registers when it is used.
DEDUCED (log entry 19). -/
inductive FieldVal where
  /-- A fixed byte. -/
  | lit (b : Byte)
  /-- `HDR = 1 ? HDR_MASK : 0x00` (42_mode_config.md R120). -/
  | header
  /-- `flag ? LDO_MASK : 0x00` (R130). -/
  | ldo
  deriving DecidableEq, Repr

/-- Where the data byte of a write transaction comes from. -/
inductive ByteSrc where
  /-- The value itself. -/
  | direct (v : FieldVal)
  /-- `(T & ~mask) | value` (20_memory.md R46). -/
  | merged (mask : Byte) (v : FieldVal)
  /-- The register `T`. -/
  | regT
  /-- The register `N`. -/
  | regN
  /-- The register `CUR`. -/
  | regCur
  /-- `TXBUF[IDX]`. -/
  | txByte
  deriving DecidableEq, Repr

/-- Where the byte of a read transaction goes. -/
inductive Dest where
  | regT
  | regN
  | regCur
  | regM
  | regMi
  | regL
  /-- `RXBUF[IDX]`. -/
  | rxByte
  deriving DecidableEq, Repr

/-- What a completed command delivers in `RESULT` (10_state.md R18; the result lines of files 40, 43, 44). -/
inductive ResultSrc where
  /-- `zext_32(T)`. -/
  | regT
  /-- `zext_32(T[7:4])`. -/
  | spreading
  /-- The bandwidth in hertz. -/
  | bandwidth
  /-- `to_s32(T − 157)`. -/
  | rssi
  /-- The frequency error of 43_getters.md R154. -/
  | freqError
  /-- `zext_32(N)`. -/
  | regN
  /-- `zext_32(T[6])`. -/
  | readyBit
  deriving DecidableEq, Repr

/-- One step of a micro-sequence (10_state.md R13). The pin, transfer and delay kinds are primitives (00_scope.md R8); the others
are the assignments, choices and loops of the pseudocode in files 41 to 44. -/
inductive MicroOp where
  /-- `PinSet(p, level)`. -/
  | pin (p : Pin) (level : Level)
  /-- The transfer of `RD(a)`. -/
  | recv (a : RegAddr)
  /-- The transfer of `WR(a, v)`. -/
  | send (a : RegAddr) (src : ByteSrc)
  /-- A bus frame as a raw word, which the step decodes and runs as an instruction of its own. DESIGN CHOICE (log
  entry 8). -/
  | frame (f : FrameWord)
  /-- `DelayMs(n)`, a primitive of its own (20_memory.md R42). -/
  | delay (n : Nat)
  /-- The value of `RD` goes to its destination. -/
  | take (d : Dest)
  /-- `LIFE <- l`. -/
  | setLife (l : Life)
  /-- `HDR <- h`. -/
  | setHdr (h : HeaderMode)
  /-- `MODE <- m`. -/
  | setMode (m : Mode)
  /-- `FREQ <- f`. -/
  | setFreq (f : BitVec 24)
  /-- `if T != VERSION_EXPECTED: raise VersionMismatch(T)` (41_initialization.md R110). -/
  | checkVersion
  /-- The test and table lookup of `ReadBwHz` (42_mode_config.md R129). -/
  | bandwidth
  /-- `sf <- T[7:4]` (R130). -/
  | spreading
  /-- `N <- TXLEN`, the one reading of `TXLEN` (10_state.md R19). DEDUCED (log entry 15). -/
  | loadTxLen
  /-- `IDX <- 0`. -/
  | clearIdx
  /-- `IDX <- IDX + 1`. -/
  | nextIdx
  /-- The payload loop of `TRANSMIT` (44_packet_io.md R161). -/
  | txLoop
  /-- The read-out loop of `READ_PACKET` (R165). -/
  | rxLoop
  /-- The loop of `POLL_IRQ` after a status read (R163). -/
  | pollTest
  /-- `CNT <- 0`. -/
  | clearCnt
  /-- The loop of `POLL_IRQ_T` after a status read, with its bound `B` (R164). -/
  | pollTestBounded (bound : Nat)
  /-- `RXLEN <- N`. -/
  | setRxLen
  /-- The end of a micro-sequence that delivers a result. -/
  | ret (r : ResultSrc)
  deriving DecidableEq, Repr

/-- The working registers of 10_state.md R21, the further local values of the pseudocode (`M`, `MI`, `L`, `hz`, `sf`) and
the byte received by the read transaction in progress. Nothing outside a micro-sequence sees them. -/
structure Work where
  t : Byte
  n : Byte
  cur : Byte
  cnt : Nat
  idx : BitVec 9
  m : Byte
  mi : Byte
  l : Byte
  hz : Nat
  sf : Nat
  rx : Byte
  deriving DecidableEq, Repr

/-- A 255-byte buffer: the bytes written so far, by index (10_state.md R19, R20). DESIGN CHOICE (log entry 16). -/
abbrev Buffer := List Host.Cell

/-- The state of the machine. -/
structure State where
  /-- The parameters (00_scope.md R6, R7): configuration, which no step changes. -/
  cfg : BlockConfig
  /-- `LIFE` (10_state.md R12). -/
  life : Life
  /-- `BUSY` (R13). -/
  busy : Bool
  /-- `upc` (R13): what is left of the running micro-sequence, its next step first; empty when it has no value. -/
  upc : List MicroOp
  /-- The latched command (R13, 20_memory.md R57). -/
  latch : Option Instr
  /-- `MODE` (R14). -/
  mode : Mode
  /-- `HDR` (R15). -/
  hdr : HeaderMode
  /-- `FREQ` (R16), `FREQ_W` bits of these 24 (the invariant of Safety says that it keeps to them). -/
  freq : BitVec 24
  /-- `STATUS` (R17). -/
  status : Byte
  /-- `RESULT` (R18). -/
  result : Word
  /-- `TXBUF` (R19). -/
  txbuf : Buffer
  /-- `TXLEN` (R19). -/
  txlen : Byte
  /-- `RXBUF` (R20). -/
  rxbuf : Buffer
  /-- `RXLEN` (R20). -/
  rxlen : Byte
  /-- `T`, `N`, `CUR`, `CNT`, `IDX` and the other local values (R21). -/
  work : Work
  /-- `CS_SHADOW` (R22). -/
  csShadow : Shadow
  /-- `RST_SHADOW` (R22). -/
  rstShadow : Shadow
  /-- The trace so far, oldest event first (00_scope.md R8, 70_reset_and_hazards.md R224). -/
  trace : List Event
  /-- INPUT. The replies the platform has at hand for the coming primitives, in order. -/
  replies : List Reply
  /-- MODEL'S OWN. How many free replies have been drawn. -/
  drawn : Nat
  /-- INPUT. What the host does next, in order (10_state.md R34). -/
  host : List HostOp
  /-- What the host port last returned (10_state.md R34). DESIGN CHOICE (log entry 18). -/
  hostData : Word
  /-- MODEL'S OWN. How many block resets have happened since power-on, which names the buffers' unspecified contents. -/
  resets : Nat
  deriving DecidableEq, Repr

/-- Why the machine stops. -/
inductive Fault where
  /-- Raised by the host port's buffer operations: the host names byte 255 of a 255-byte buffer, which does not exist
  (10_state.md R11, R19, R20). DEDUCED (log entry 9). Safe: the spec gives the port no such operation. -/
  | noSuchBufferByte
  deriving DecidableEq, Repr

/-- Why the machine does not run something. -/
inductive Refusal where
  /-- Raised by a dispatch arm without a meaning. Safe: the machine stops. -/
  | notModelled (mnemonic : String)
  /-- Raised by a command's meaning when the block is busy: nothing is accepted then (60_exceptions.md R197), and the step
  never asks for it. DESIGN CHOICE (log entry 10). Safe: the machine stops. -/
  | issueWhileBusy
  /-- Raised by the step when the micro-sequence holds a frame word that is no frame of 30_encoding.md R70 (a read frame
  whose second byte is not 0x00, "never sent by the block", R71). Safe: the machine stops. -/
  | notAFrame
  deriving DecidableEq, Repr

/-- The working registers at reset: no value by 10_state.md R35, so zero. DESIGN CHOICE (log entry 4). -/
def Work.zero : Work where
  t := 0
  n := 0
  cur := 0
  cnt := 0
  idx := 0
  m := 0
  mi := 0
  l := 0
  hz := 0
  sf := 0
  rx := 0

/-- The machine right after block reset (70_reset_and_hazards.md R210, 10_state.md R35). `MODE`, `HDR`, `FREQ`, `TXLEN`,
`RXLEN` are "unspecified" there: zero, DESIGN CHOICE (log entry 3); no buffer byte is written yet. -/
def State.reset : State where
  cfg := defaultConfig
  life := .poweredUnknown
  busy := false
  upc := []
  latch := none
  mode := .sleep
  hdr := .explicit
  freq := 0
  status := 0x00
  result := 0
  txbuf := []
  txlen := 0
  rxbuf := []
  rxlen := 0
  work := Work.zero
  csShadow := .unknown
  rstShadow := .unknown
  trace := []
  replies := []
  drawn := 0
  host := []
  hostData := 0
  resets := 0

end Sys2Proof.Machine
end

