-- ==== Sys2Proof/Machine/Flags.lean ====
section
/-! DEFINITION. The status codes (60_exceptions.md R180), the register codes the host port shows (10_state.md R12, R14, R15) and
the one event flag the block tests (R30). -/

namespace Sys2Proof.Machine

/-- `STATUS` after a success (R180). -/
def statusOk : Byte := 0x00

/-- `code(E)`, the `STATUS` column of R180. -/
def Err.code : Err → Byte
  | .chipSelectPin => 0x01
  | .resetPin => 0x02
  | .busTransport => 0x03
  | .versionMismatch _ => 0x04
  | .receiveTimeout => 0x05
  | .transmitInProgress => 0x06
  | .illegalCommand => 0x80
  | .notReady => 0x81
  | .bandwidthUnknown _ => 0x82

/-- The `RESULT` column of R180: the information an error carries, zero-extended, else 0. -/
def Err.info : Err → Word
  | .versionMismatch b => b.setWidth 32
  | .bandwidthUnknown i => i.setWidth 32
  | .chipSelectPin => 0
  | .resetPin => 0
  | .busTransport => 0
  | .receiveTimeout => 0
  | .transmitInProgress => 0
  | .illegalCommand => 0
  | .notReady => 0

/-- "one of the three pin and transport faults" (R184 step 3). -/
def Err.isLink : Err → Bool
  | .chipSelectPin => true
  | .resetPin => true
  | .busTransport => true
  | .versionMismatch _ => false
  | .receiveTimeout => false
  | .transmitInProgress => false
  | .illegalCommand => false
  | .notReady => false
  | .bandwidthUnknown _ => false

/-- The error a failed pin operation raises (20_memory.md R40). -/
def pinErr : Pin → Err
  | .cs => .chipSelectPin
  | .reset => .resetPin

/-- The encoding of `LIFE` (10_state.md R12). -/
def Life.code : Life → Word
  | .poweredUnknown => 0
  | .resetting => 1
  | .versionCheck => 2
  | .configuring => 3
  | .ready => 4
  | .failed => 5

/-- The stored encoding of `MODE` (10_state.md R14). -/
def Mode.code : Mode → Word
  | .sleep => 0
  | .standby => 1
  | .transmit => 2
  | .receiveContinuous => 3
  | .receiveSingle => 4

/-- The encoding of `HDR` (10_state.md R15). -/
def HeaderMode.code : HeaderMode → Word
  | .explicit => 0
  | .implicit => 1

/-- Receive-done in a status byte: bit 6 (10_state.md R30). -/
def receiveDone (b : Byte) : Bool := b.getLsbD irqRxDoneBit

end Sys2Proof.Machine
end

