-- ==== Sys2Proof/Machine/Operands.lean ====
section
/-! DEFINITION. Operands and arithmetic: the assembly of register values (30_encoding.md R78 to R86), the formulas of files 42
and 43, and where a micro-sequence's bytes and results come from. -/

namespace Sys2Proof.Machine

/-- `v[7:4]` as a number (00_scope.md R8). -/
def highNibble (b : Byte) : Nat := (b >>> 4).toNat

/-- `clamp(x, lo, hi)` (00_scope.md R8). -/
def clamp (x lo hi : Nat) : Nat := if x < lo then lo else if hi < x then hi else x

/-- The operating mode an operand names (10_state.md R14); 5..7 name none. -/
def modeOf (m : BitVec 3) : Option Mode :=
  match m with
  | 0#3 => some .sleep
  | 1#3 => some .standby
  | 2#3 => some .transmit
  | 3#3 => some .receiveContinuous
  | 4#3 => some .receiveSingle
  | _ => none

/-- `SET_HEADER`'s operand (42_mode_config.md R123). -/
def headerOf (h : BitVec 1) : HeaderMode := if h = 1#1 then .implicit else .explicit

/-- `MODE_BITS(m)` (00_scope.md R6). -/
def modeBitsOf (c : ChipMap) : Mode → Byte
  | .sleep => c.modeBits.sleep
  | .standby => c.modeBits.standby
  | .transmit => c.modeBits.transmit
  | .receiveContinuous => c.modeBits.receiveContinuous
  | .receiveSingle => c.modeBits.receiveSingle

/-- The mode byte, `LR_BIT | MODE_BITS(m)` (30_encoding.md R79). -/
def modeByte (c : ChipMap) (m : Mode) : Byte := c.lrBit ||| modeBitsOf c m

/-- The frequency word `frf24 = frf mod 2^24` (30_encoding.md R78). -/
def frf24 (f : BitVec 24) : BitVec 24 := BitVec.ofNat 24 (f.toNat * 2 ^ 19 / 32)

/-- `frf24[23:16]`. -/
def frfMsb (f : BitVec 24) : Byte := (frf24 f).extractLsb' 16 8

/-- `frf24[15:8]`. -/
def frfMid (f : BitVec 24) : Byte := (frf24 f).extractLsb' 8 8

/-- `frf24[7:0]`. -/
def frfLsb (f : BitVec 24) : Byte := (frf24 f).extractLsb' 0 8

/-- `sf = clamp(x, 6, 12)` (30_encoding.md R80). -/
def spreadingOf (x : Byte) : Nat := clamp x.toNat 6 12

/-- The spreading-factor nibble `sf << 4` (R80). -/
def spreadingField (x : Byte) : Byte := BitVec.ofNat 8 (spreadingOf x * 16)

/-- The two detection constants (R86). -/
def detection (x : Byte) : Byte × Byte := if spreadingOf x = 6 then detSf6 else detOther

/-- `idx(hz)` (30_encoding.md R81): the position in `BW_TABLE`, else 9. -/
def bwIndex (hz : BitVec 24) : Nat := (bwTable.idxOf? hz.toNat).getD 9

/-- The bandwidth nibble `idx << 4` (R81). -/
def bwField (hz : BitVec 24) : Byte := BitVec.ofNat 8 (bwIndex hz * 16)

/-- `BW_TABLE[i]` (R81); there is no bandwidth for `i` above 8. -/
def bwHz (i : Nat) : Option Nat := bwTable[i]?

/-- The coding-rate field `((dd − 4) << CR_SHIFT) & CR_MASK` (30_encoding.md R82). -/
def codingField (c : ChipMap) (d : Byte) : Byte :=
  (BitVec.ofNat 8 (clamp d.toNat 5 8 - 4) <<< c.crShift) &&& c.crMask

/-- `OcpTrim(ma)` (42_mode_config.md R133). -/
def ocpTrim (ma : Nat) : Nat :=
  if ma < 45 then 0 else if ma ≤ 120 then (ma - 45) / 5 else if ma ≤ 240 then (ma + 30) / 10 else 27

/-- The over-current byte (30_encoding.md R84). -/
def ocpByte (c : ChipMap) (ma : Byte) : Byte := c.ocpEnable ||| (BitVec.ofNat 8 (ocpTrim ma.toNat) &&& c.ocpTrimMask)

/-- `PA_MAP(p)` (42_mode_config.md R138). -/
def paByte (c : ChipMap) (p : Byte) : Byte :=
  match c.paMap with
  | .boost => 0x80#8 ||| BitVec.ofNat 8 (clamp p.toNat 2 17 - 2)
  | .table bytes => bytes.getD p.toNat 0

/-- `PREAMBLE_SEQ(len)` (42_mode_config.md R135). -/
def preambleList (c : ChipMap) (len : BitVec 16) : List FieldTriple :=
  match c.preambleSeq with
  | .registerPair =>
    [{ addr := c.reg.preambleMsb, mask := 0xFF, val := len.extractLsb' 8 8 },
     { addr := c.reg.preambleLsb, mask := 0xFF, val := len.extractLsb' 0 8 }]
  | .table rows => rows.getD len.toNat []

/-- `INVERT_IQ_SEQ(e)` (42_mode_config.md R137). -/
def invertIqList (c : ChipMap) (e : BitVec 1) : List FieldTriple :=
  match c.invertIqSeq with
  | .bitSix => [{ addr := c.reg.invertIq, mask := 0x40, val := if e = 1#1 then 0x40 else 0x00 }]
  | .lists off on => if e = 1#1 then on else off

/-- `DIO0_TXDONE_SEQ` (42_mode_config.md R140). -/
def dio0List (c : ChipMap) : List FieldTriple :=
  match c.dio0TxDoneSeq with
  | .mappingByte => [{ addr := c.reg.dioMapping1, mask := 0xFF, val := 0x40 }]
  | .list seq => seq

/-- The CRC field's value (42_mode_config.md R136). -/
def crcField (c : ChipMap) (e : BitVec 1) : Byte := if e = 1#1 then c.crcMask else 0x00

/-- The low-data-rate flag from the two values read (42_mode_config.md R130, with its last point for `truncating`). -/
def ldoFlag (a : LdoArith) (sf hz : Nat) : Bool :=
  match a with
  | .exact => decide (16 * hz < 1000 * 2 ^ sf)
  | .truncating => if hz / 2 ^ sf = 0 then true else decide (16 < 1000 / (hz / 2 ^ sf))

/-- `to_s32(T − 157)` (43_getters.md R152). -/
def rssiWord (t : Byte) : Word := BitVec.ofInt 32 (t.toNat - rssiOffset)

/-- `v`, the combined frequency-error magnitude (43_getters.md R154). -/
def freqErrorRaw (c : ChipMap) (m mi l : Byte) : Nat := (m &&& c.feMsbMask).toNat * 2 ^ 16 + mi.toNat * 2 ^ 8 + l.toNat

/-- The frequency error in hertz, one exact product and one division (43_getters.md R154). -/
def freqErrorHz (v hz : Nat) : Nat := v * 2 ^ 24 * hz / (fXtal * 500000)

/-- The bound `B = n · POLL_UNIT_TICKS` (44_packet_io.md R164). -/
def pollBound (c : BlockConfig) (n : BitVec 24) : Nat := n.toNat * c.pollUnitTicks

/-- A written byte of a buffer, none where nothing has been written. -/
def Buffer.read : Buffer → Nat → Option Byte
  | [], _ => none
  | (a, b) :: rest, i => if a = i then some b else Buffer.read rest i

/-- `TXBUF[i]`: the byte last written, else a free value (10_state.md R35; log entry 5). -/
def State.txAt (s : State) (i : Nat) : Byte := (Buffer.read s.txbuf i).getD (Config.unwrittenTx s.resets i)

/-- `RXBUF[i]`: the byte last written, else a free value (10_state.md R20, R35; log entry 5). -/
def State.rxAt (s : State) (i : Nat) : Byte := (Buffer.read s.rxbuf i).getD (Config.unwrittenRx s.resets i)

/-- The value of a field write. -/
def State.fieldVal (s : State) : FieldVal → Byte
  | .lit b => b
  | .header => match s.hdr with
    | .implicit => s.cfg.chip.hdrMask
    | .explicit => 0x00
  | .ldo => if ldoFlag s.cfg.ldoArith s.work.sf s.work.hz then s.cfg.chip.ldoMask else 0x00

/-- The data byte of a write transaction. -/
def State.byteOf (s : State) : ByteSrc → Byte
  | .direct v => s.fieldVal v
  | .merged mask v => (s.work.t &&& ~~~mask) ||| s.fieldVal v
  | .regT => s.work.t
  | .regN => s.work.n
  | .regCur => s.work.cur
  | .txByte => s.txAt s.work.idx.toNat

/-- The value a completed command delivers. -/
def State.resultOf (s : State) : ResultSrc → Word
  | .regT => s.work.t.setWidth 32
  | .spreading => BitVec.ofNat 32 (highNibble s.work.t)
  | .bandwidth => BitVec.ofNat 32 s.work.hz
  | .rssi => rssiWord s.work.t
  | .freqError => BitVec.ofNat 32 (freqErrorHz (freqErrorRaw s.cfg.chip s.work.m s.work.mi s.work.l) s.work.hz)
  | .regN => s.work.n.setWidth 32
  | .readyBit => if receiveDone s.work.t then 1 else 0

end Sys2Proof.Machine
end

