-- ==== Sys2Proof/Machine/Ops.lean ====
section
/-! DEFINITION. The named operations of the machine: registers and buffers, the sub-sequences (files 20, 42, 44), completion and
abort (10_state.md R13, 60_exceptions.md R184), the advance of `upc` and the running of primitives, acceptance of a command
(30_encoding.md R75), and block reset (70_reset_and_hazards.md R210). -/

namespace Sys2Proof.Machine

/-! ### Buffers -/

/-- Writing a byte into the sorted list, replacing the entry of its index. -/
def Buffer.insert : Buffer → Nat → Byte → Buffer
  | [], i, v => [(i, v)]
  | (a, b) :: rest, i, v =>
    if i < a then (i, v) :: (a, b) :: rest
    else if i = a then (i, v) :: rest
    else (a, b) :: Buffer.insert rest i v

/-- Writing byte `i` of a 255-byte buffer; a byte past the end does not exist and takes nothing. -/
def Buffer.write (m : Buffer) (i : Nat) (v : Byte) : Buffer := if i < bufLen then Buffer.insert m i v else m

/-- Every index is above the bound, and the indexes rise. -/
def Buffer.risesFrom (lo : Nat) : Buffer → Bool
  | [] => true
  | (a, _) :: rest => decide (lo ≤ a) && decide (a < bufLen) && Buffer.risesFrom (a + 1) rest

/-- The canonical form: indexes below 255, strictly rising. An unlisted index holds no written byte, so no entry can equal
what it reads as. -/
def Buffer.wf (m : Buffer) : Bool := Buffer.risesFrom 0 m

/-! ### The trace and the shadows -/

/-- One more event (00_scope.md R8). -/
def State.log (s : State) (e : Event) : State := { s with trace := s.trace ++ [e] }

/-- The shadow of a commanded level (10_state.md R22). -/
def Level.shadow : Level → Shadow
  | .low => .low
  | .high => .high

/-- "A successful `PinSet(p, level)` sets the shadow to `level`" (10_state.md R22). -/
def State.setShadow (s : State) (p : Pin) (l : Level) : State :=
  match p with
  | .cs => { s with csShadow := l.shadow }
  | .reset => { s with rstShadow := l.shadow }

/-- The byte of a read goes to its destination. -/
def State.store (s : State) (d : Dest) (b : Byte) : State :=
  match d with
  | .regT => { s with work := { s.work with t := b } }
  | .regN => { s with work := { s.work with n := b } }
  | .regCur => { s with work := { s.work with cur := b } }
  | .regM => { s with work := { s.work with m := b } }
  | .regMi => { s with work := { s.work with mi := b } }
  | .regL => { s with work := { s.work with l := b } }
  | .rxByte => { s with rxbuf := Buffer.write s.rxbuf s.work.idx.toNat b }

/-! ### Completion and abort -/

/-- The end of a micro-sequence (10_state.md R13): `STATUS <- 0x00`, `RESULT <- r`, `BUSY <- 0`. -/
def State.complete (s : State) (r : Word) : State :=
  { s with status := statusOk, result := r, busy := false, upc := [], latch := none }

/-- Whether the running command is `INIT` (60_exceptions.md R184 step 4). -/
def isInit : Option Instr → Bool
  | some (.init _) => true
  | _ => false

/-- `CS_SHADOW` after an abort (60_exceptions.md R184 step 3). -/
def csAfter (e : Err) (old : Shadow) : Shadow := if e.isLink then .unknown else old

/-- `RST_SHADOW` after an abort (60_exceptions.md R184 step 3). -/
def rstAfter (e : Err) (old : Shadow) : Shadow := if e = .resetPin then .unknown else old

/-- `LIFE` after an abort (60_exceptions.md R184 step 4). -/
def lifeAfter (running : Option Instr) (old : Life) : Life := if isInit running then .failed else old

/-- The abort of 60_exceptions.md R184, the block's one exception entry: nothing further is issued or written, the shadows and
`LIFE` as its steps 3 and 4 say, `STATUS <- code(E)`, `RESULT <- zext_32(info)`, `BUSY <- 0`. -/
def State.abort (s : State) (e : Err) : State :=
  { s with
    status := e.code
    result := e.info
    busy := false
    upc := []
    latch := none
    csShadow := csAfter e s.csShadow
    rstShadow := rstAfter e s.rstShadow
    life := lifeAfter s.latch s.life }

/-- `complete(E)` of 30_encoding.md R75: an error found at decode writes `STATUS` and `RESULT` and nothing else. -/
def State.reject (s : State) (e : Err) : State := { s with status := e.code, result := e.info }

/-! ### Transactions and sub-sequences -/

/-- `RD(a)` with the destination of its value (20_memory.md R43). -/
def rd (a : RegAddr) (d : Dest) : List MicroOp := [.pin .cs .low, .recv a, .pin .cs .high, .take d]

/-- `WR(a, v)` (20_memory.md R44). -/
def wr (a : RegAddr) (src : ByteSrc) : List MicroOp := [.pin .cs .low, .send a src, .pin .cs .high]

/-- `WR(a, v)` for a byte known beforehand. -/
def wrLit (a : RegAddr) (v : Byte) : List MicroOp := wr a (.direct (.lit v))

/-- `FieldWrite(a, mask, val)` (20_memory.md R46). -/
def fieldWrite (a : RegAddr) (mask : Byte) (v : FieldVal) : List MicroOp :=
  if mask = 0xFF#8 then wr a (.direct v) else rd a .regT ++ wr a (.merged mask v)

/-- A field-write list, in order (42_mode_config.md R134). -/
def fieldWrites : List FieldTriple → List MicroOp
  | [] => []
  | f :: rest => fieldWrite f.addr f.mask (.lit f.val) ++ fieldWrites rest

/-- `ApplyHeader()` (42_mode_config.md R120). -/
def applyHeader (c : ChipMap) : List MicroOp := fieldWrite c.reg.mc1 c.hdrMask .header

/-- `SetMode(m)` (42_mode_config.md R121). -/
def setModeSeq (c : ChipMap) (m : Mode) : List MicroOp :=
  applyHeader c ++ (wrLit c.reg.opMode (modeByte c m) ++ [.setMode m])

/-- `SetFrequency(f)` (42_mode_config.md R124). -/
def setFrequencySeq (c : ChipMap) (f : BitVec 24) : List MicroOp :=
  wrLit c.reg.frfMsb (frfMsb f) ++ (wrLit (c.reg.frfMsb + 1) (frfMid f) ++
    (wrLit (c.reg.frfMsb + 2) (frfLsb f) ++ [.setFreq f]))

/-- `ReadBwHz()` (42_mode_config.md R129). -/
def readBwHz (c : ChipMap) : List MicroOp := rd c.reg.mc1 .regT ++ [.bandwidth]

/-- `UpdateLdo()` (42_mode_config.md R130). -/
def updateLdo (c : ChipMap) : List MicroOp :=
  readBwHz c ++ (rd c.reg.mc2 .regT ++ ([.spreading] ++ fieldWrite c.reg.mc3 c.ldoMask .ldo))

/-- `ClearIrq()` (44_packet_io.md R160). -/
def clearIrqSeq (c : ChipMap) : List MicroOp := rd c.reg.irqFlags .regT ++ wr c.reg.irqFlags .regT

/-- `PacketReady()` (44_packet_io.md R162). -/
def packetReadySeq (c : ChipMap) : List MicroOp := clearIrqSeq c ++ rd c.reg.rxNbBytes .regN

/-! ### The movement of `upc` -/

/-- One pass of the payload loop's body (44_packet_io.md R161). -/
def txBody (c : ChipMap) : List MicroOp := wr c.reg.fifo .txByte ++ [.nextIdx, .txLoop]

/-- One pass of the read-out loop's body (44_packet_io.md R165). -/
def rxBody (c : ChipMap) : List MicroOp := rd c.reg.fifo .rxByte ++ [.nextIdx, .rxLoop]

/-- What `upc` does after a primitive (10_state.md R13): the assignments, choices and loop tests of the pseudocode, up to the
next primitive (a delay is one, 20_memory.md R42), or to the end of the micro-sequence. -/
def advance : List MicroOp → State → State
  | [], s => s.complete 0
  | .ret r :: _, s => s.complete (s.resultOf r)
  | .pin p l :: rest, s => { s with upc := .pin p l :: rest }
  | .recv a :: rest, s => { s with upc := .recv a :: rest }
  | .send a src :: rest, s => { s with upc := .send a src :: rest }
  | .frame f :: rest, s => { s with upc := .frame f :: rest }
  | .delay n :: rest, s => { s with upc := .delay n :: rest }
  | .take d :: rest, s => advance rest (s.store d s.work.rx)
  | .setLife l :: rest, s => advance rest { s with life := l }
  | .setHdr h :: rest, s => advance rest { s with hdr := h }
  | .setMode m :: rest, s => advance rest { s with mode := m }
  | .setFreq f :: rest, s => advance rest { s with freq := f }
  | .checkVersion :: rest, s =>
    if s.work.t = s.cfg.chip.versionExpected then advance rest s else s.abort (.versionMismatch s.work.t)
  | .bandwidth :: rest, s =>
    match bwHz (highNibble s.work.t) with
    | some hz => advance rest { s with work := { s.work with hz := hz } }
    | none => s.abort (.bandwidthUnknown (s.work.t >>> 4))
  | .spreading :: rest, s => advance rest { s with work := { s.work with sf := highNibble s.work.t } }
  | .loadTxLen :: rest, s => advance rest { s with work := { s.work with n := s.txlen } }
  | .clearIdx :: rest, s => advance rest { s with work := { s.work with idx := 0 } }
  | .nextIdx :: rest, s => advance rest { s with work := { s.work with idx := s.work.idx + 1 } }
  | .txLoop :: rest, s =>
    if s.work.idx.toNat < s.work.n.toNat then { s with upc := txBody s.cfg.chip ++ rest } else advance rest s
  | .rxLoop :: rest, s =>
    if s.work.idx.toNat < s.work.n.toNat then { s with upc := rxBody s.cfg.chip ++ rest } else advance rest s
  | .pollTest :: rest, s =>
    if receiveDone s.work.t then advance rest s
    else { s with upc := .delay pollIdleMs :: (rd s.cfg.chip.reg.irqFlags .regT ++ .pollTest :: rest) }
  | .clearCnt :: rest, s => advance rest { s with work := { s.work with cnt := 0 } }
  | .pollTestBounded b :: rest, s =>
    if receiveDone s.work.t then advance rest s
    else if b ≤ s.work.cnt then s.abort .receiveTimeout
    else
      { s with
        work := { s.work with cnt := s.work.cnt + 1 }
        upc := .delay pollTickMs :: (rd s.cfg.chip.reg.irqFlags .regT ++ .pollTestBounded b :: rest) }
  | .setRxLen :: rest, s => advance rest { s with rxlen := s.work.n }

/-- After a successful primitive `upc` moves on; after a failed one the command aborts (10_state.md R13). -/
def afterPin (p : Pin) (l : Level) (ok : Bool) (rest : List MicroOp) (s : State) : State :=
  if ok then advance rest ((s.log (.pin p l true)).setShadow p l) else (s.log (.pin p l false)).abort (pinErr p)

/-- The transfer of a read: `r1` is the byte received while the placeholder is sent, `r0` is discarded (20_memory.md R43). -/
def afterRecv (a : RegAddr) (r : Option (Byte × Byte)) (rest : List MicroOp) (s : State) : State :=
  match r with
  | some p =>
    advance rest { s.log (.xfer (readHeader a) 0x00 (some p)) with work := { s.work with rx := p.2 } }
  | none => (s.log (.xfer (readHeader a) 0x00 none)).abort .busTransport

/-- The transfer of a write: both received bytes are discarded (20_memory.md R44). -/
def afterSend (a : RegAddr) (v : Byte) (r : Option (Byte × Byte)) (rest : List MicroOp) (s : State) : State :=
  match r with
  | some p => advance rest (s.log (.xfer (writeHeader a) v (some p)))
  | none => (s.log (.xfer (writeHeader a) v none)).abort .busTransport

/-- A delay is one event and always returns (20_memory.md R42). -/
def afterDelay (n : Nat) (rest : List MicroOp) (s : State) : State := advance rest (s.log (.delay n))

/-- The primitive `upc` stands at, with the outcome the platform gives it (20_memory.md R40, R41, R42). -/
def perform (r : Reply) (s : State) : State :=
  match s.upc, r with
  | .pin p l :: rest, .pin ok => afterPin p l ok rest s
  | .recv a :: rest, .xfer x => afterRecv a x rest s
  | .send a src :: rest, .xfer x => afterSend a (s.byteOf src) x rest s
  | .delay n :: rest, .delay => afterDelay n rest s
  | _, _ => s

/-- A reply answers a primitive of its own kind only. -/
def answers (r : Reply) : List MicroOp → Bool
  | .pin _ _ :: _ => match r with
    | .pin _ => true
    | .xfer _ => false
    | .delay => false
  | .recv _ :: _ => match r with
    | .pin _ => false
    | .xfer _ => true
    | .delay => false
  | .send _ _ :: _ => match r with
    | .pin _ => false
    | .xfer _ => true
    | .delay => false
  | .delay _ :: _ => match r with
    | .pin _ => false
    | .xfer _ => false
    | .delay => true
  | _ => false

/-- The micro-sequence runs as far as the replies at hand reach, at most `n` primitives; where they run out, the block waits
with `BUSY = 1` for its next primitive to return. DESIGN CHOICE (log entry 11). -/
def run : Nat → State → State
  | 0, s => s
  | n + 1, s =>
    match s.replies with
    | [] => s
    | r :: rs => if answers r s.upc then run n (perform r { s with replies := rs }) else s

/-- Acceptance (30_encoding.md R75): the command is latched, `BUSY <- 1`, `upc <- 0`, and its micro-sequence starts. -/
def State.start (s : State) (i : Instr) (ops : List MicroOp) : State :=
  run s.replies.length (advance ops { s with busy := true, latch := some i })

/-- A command other than `INIT`, through the tests of 30_encoding.md R75 in their order (60_exceptions.md R197 for a busy block);
a word that decodes passes the first, since its operands have their widths. -/
def State.command (s : State) (i : Instr) (ops : List MicroOp) : Host.Outcome State Fault Refusal :=
  if s.busy then .refused .issueWhileBusy
  else if i.wf s.cfg.widths then
    if s.life = .ready then .next (s.start i ops) else .next (s.reject .notReady)
  else .next (s.reject .illegalCommand)

/-- `INIT`, which every lifecycle state accepts (30_encoding.md R75, 60_exceptions.md R197). -/
def State.initCommand (s : State) (i : Instr) (ops : List MicroOp) : Host.Outcome State Fault Refusal :=
  if s.busy then .refused .issueWhileBusy
  else if i.wf s.cfg.widths then .next (s.start i ops)
  else .next (s.reject .illegalCommand)

/-- One bus frame as a transaction of the running micro-sequence, whose next step follows it: the three primitives of
20_memory.md R43 or R44. -/
def State.transact (s : State) (ops : List MicroOp) : State :=
  run 3 (advance (ops ++ s.upc) { s with busy := true })

/-! ### Block reset and the host port -/

/-- Block reset (70_reset_and_hazards.md R210): a running command is abandoned, no primitive is issued. The registers it leaves
unspecified take the values of `State.reset` (log entry 3); the parameters, the record of events and the inputs
stay (DESIGN CHOICE, log entry 13). -/
def State.blockReset (s : State) : State :=
  { State.reset with
    cfg := s.cfg
    trace := s.trace
    replies := s.replies
    drawn := s.drawn
    host := s.host
    hostData := s.hostData
    resets := s.resets + 1 }

/-- The value of a register as the host port returns it (10_state.md R34). -/
def State.readReg (s : State) : HostReg → Word
  | .life => s.life.code
  | .busy => if s.busy then 1 else 0
  | .status => s.status.setWidth 32
  | .result => s.result
  | .mode => s.mode.code
  | .hdr => s.hdr.code
  | .freq => s.freq.setWidth 32
  | .txlen => s.txlen.setWidth 32
  | .rxlen => s.rxlen.setWidth 32

/-- Which operations the host has while `BUSY = 1` (10_state.md R34, 70_reset_and_hazards.md R221): reading `BUSY` and `LIFE`.
Block reset is no operation of the port and may come at any time (R210; DESIGN CHOICE, log entries 10, 13), and to let a
primitive go by is none either (DESIGN CHOICE, log entry 20). -/
def allowedBusy : HostOp → Bool
  | .readReg .life => true
  | .readReg .busy => true
  | .blockReset => true
  | .wait => true
  | .readReg .status => false
  | .readReg .result => false
  | .readReg .mode => false
  | .readReg .hdr => false
  | .readReg .freq => false
  | .readReg .txlen => false
  | .readReg .rxlen => false
  | .issue _ => false
  | .writeTx _ _ => false
  | .writeTxLen _ => false
  | .readBuf _ _ => false

end Sys2Proof.Machine
end

