-- ==== Sys2Proof/Machine/Access.lean ====
section
/-! DEFINITION. The Register Access Layer: `RD_REG`, `WR_REG` (40_register_access.md) and the two bus frames (20_memory.md R43, R44). -/

namespace Sys2Proof.Machine

/-- `RD_REG a` (40_register_access.md R100). -/
def execRdReg (a : RegAddr) (s : State) : Host.Outcome State Fault Refusal :=
  s.command (.rdReg a) (rd a .regT ++ [.ret .regT])

/-- `WR_REG a, v` (40_register_access.md R101): no cache is updated. -/
def execWrReg (a : RegAddr) (v : Byte) (s : State) : Host.Outcome State Fault Refusal :=
  s.command (.wrReg a v) (wrLit a v)

/-- The read frame: the transaction `RD(a)` (20_memory.md R43), its value in `T`. DESIGN CHOICE (log entry 8). -/
def execBusReadFrame (a : RegAddr) (s : State) : Host.Outcome State Fault Refusal :=
  .next (s.transact (rd a .regT))

/-- The write frame: the transaction `WR(a, d)` (20_memory.md R44). DESIGN CHOICE (log entry 8). -/
def execBusWriteFrame (a : RegAddr) (d : Byte) (s : State) : Host.Outcome State Fault Refusal :=
  .next (s.transact (wrLit a d))

end Sys2Proof.Machine
end

