-- ==== Sys2Proof/Machine/Getters.lean ====
section
/-! DEFINITION. The getters (43_getters.md). -/

namespace Sys2Proof.Machine

/-- `GET_SF` (43_getters.md R150). -/
def execGetSf (s : State) : Host.Outcome State Fault Refusal :=
  s.command .getSf (rd s.cfg.chip.reg.mc2 .regT ++ [.ret .spreading])

/-- `GET_BW` (R151). -/
def execGetBw (s : State) : Host.Outcome State Fault Refusal :=
  s.command .getBw (readBwHz s.cfg.chip ++ [.ret .bandwidth])

/-- `GET_RSSI` (R152). -/
def execGetRssi (s : State) : Host.Outcome State Fault Refusal :=
  s.command .getRssi (rd s.cfg.chip.reg.pktRssi .regT ++ [.ret .rssi])

/-- `GET_SNR` (R153). -/
def execGetSnr (s : State) : Host.Outcome State Fault Refusal :=
  s.command .getSnr (rd s.cfg.chip.reg.pktSnr .regT ++ [.ret .regT])

/-- The micro-sequence of `GET_FREQ_ERROR` (R154): top byte first, bandwidth last. -/
def freqErrorSeq (c : ChipMap) : List MicroOp :=
  rd c.reg.freqErrorMsb .regM ++ (rd c.reg.freqErrorMid .regMi ++ (rd c.reg.freqErrorLsb .regL ++
    (readBwHz c ++ [.ret .freqError])))

/-- `GET_FREQ_ERROR` (R154). -/
def execGetFreqError (s : State) : Host.Outcome State Fault Refusal :=
  s.command .getFreqError (freqErrorSeq s.cfg.chip)

end Sys2Proof.Machine
end

