-- ==== Sys2Proof/Machine/Init.lean ====
section
/-! DEFINITION. Initialisation: `INIT` (41_initialization.md). -/

namespace Sys2Proof.Machine

/-- The reset pulse and what precedes it (41_initialization.md R110, entry and step 1; 70_reset_and_hazards.md R211). -/
def initPulse : List MicroOp :=
  [.setHdr .explicit, .setLife .resetting, .pin .reset .low, .delay resetHoldMs, .pin .reset .high, .delay resetHoldMs,
    .setLife .versionCheck]

/-- Step 3 of R110. -/
def initConfigure (c : ChipMap) (f : BitVec 24) : List MicroOp :=
  setModeSeq c .sleep ++ (setFrequencySeq c f ++ (wrLit c.reg.fifoTxBase 0x00 ++ (wrLit c.reg.fifoRxBase 0x00 ++
    (fieldWrite c.reg.lna c.lnaBoostMask (.lit c.lnaBoostMask) ++ (wrLit c.reg.mc3 c.initMc3Value ++
      (setModeSeq c .standby ++ [.pin .cs .high, .setLife .ready]))))))

/-- The micro-sequence of `INIT f` (R110). -/
def initSeq (c : ChipMap) (f : BitVec 24) : List MicroOp :=
  initPulse ++ (rd c.reg.version .regT ++ ([.checkVersion, .setLife .configuring] ++ initConfigure c f))

/-- `INIT f` (41_initialization.md R110). -/
def execInit (f : BitVec 24) (s : State) : Host.Outcome State Fault Refusal :=
  s.initCommand (.init f) (initSeq s.cfg.chip f)

end Sys2Proof.Machine
end

