-- ==== Sys2Proof/Machine/Packet.lean ====
section
/-! DEFINITION. The Packet I/O Engine (44_packet_io.md). -/

namespace Sys2Proof.Machine

/-- The micro-sequence of `TRANSMIT` (44_packet_io.md R161). -/
def transmitSeq (c : ChipMap) : List MicroOp :=
  setModeSeq c .standby ++ (applyHeader c ++ (clearIrqSeq c ++ (wrLit c.reg.fifoAddrPtr 0x00 ++
    (wrLit c.reg.payloadLength 0x00 ++ ([.loadTxLen] ++ (wr c.reg.fifo .regN ++ ([.clearIdx, .txLoop] ++
      setModeSeq c .transmit)))))))

/-- `TRANSMIT` (R161). -/
def execTransmit (s : State) : Host.Outcome State Fault Refusal :=
  s.command .transmit (transmitSeq s.cfg.chip)

/-- The micro-sequence of `POLL_IRQ` (R163). -/
def pollSeq (c : ChipMap) : List MicroOp :=
  setModeSeq c .receiveContinuous ++ (rd c.reg.irqFlags .regT ++ ([.pollTest] ++ (packetReadySeq c ++ [.ret .regN])))

/-- `POLL_IRQ` (R163). -/
def execPollIrq (s : State) : Host.Outcome State Fault Refusal :=
  s.command .pollIrq (pollSeq s.cfg.chip)

/-- The micro-sequence of `POLL_IRQ_T` with the bound `B` (R164). -/
def pollBoundedSeq (c : ChipMap) (b : Nat) : List MicroOp :=
  setModeSeq c .receiveContinuous ++ ([.clearCnt] ++ (rd c.reg.irqFlags .regT ++ ([.pollTestBounded b] ++
    (packetReadySeq c ++ [.ret .regN]))))

/-- `POLL_IRQ_T n` (R164). -/
def execPollIrqT (n : BitVec 24) (s : State) : Host.Outcome State Fault Refusal :=
  s.command (.pollIrqT n) (pollBoundedSeq s.cfg.chip (pollBound s.cfg n))

/-- The micro-sequence of `READ_PACKET` (R165). -/
def readPacketSeq (c : ChipMap) : List MicroOp :=
  clearIrqSeq c ++ (rd c.reg.rxNbBytes .regN ++ (rd c.reg.fifoRxCurrent .regCur ++ (wr c.reg.fifoAddrPtr .regCur ++
    ([.clearIdx, .rxLoop] ++ (wrLit c.reg.fifoAddrPtr 0x00 ++ [.setRxLen, .ret .regN])))))

/-- `READ_PACKET` (R165). -/
def execReadPacket (s : State) : Host.Outcome State Fault Refusal :=
  s.command .readPacket (readPacketSeq s.cfg.chip)

/-- `IRQ_FLAGS` (R166). -/
def execIrqFlags (s : State) : Host.Outcome State Fault Refusal :=
  s.command .irqFlags (rd s.cfg.chip.reg.irqFlags .regT ++ [.ret .regT])

/-- `CLEAR_IRQ` (R167). -/
def execClearIrq (s : State) : Host.Outcome State Fault Refusal :=
  s.command .clearIrq (clearIrqSeq s.cfg.chip)

/-- `IS_PACKET_READY` (R168). -/
def execIsPacketReady (s : State) : Host.Outcome State Fault Refusal :=
  s.command .isPacketReady (rd s.cfg.chip.reg.irqFlags .regT ++ [.ret .readyBit])

end Sys2Proof.Machine
end

