-- ==== Sys2Proof/Machine/Setters.lean ====
section
/-! DEFINITION. The setters of the Mode & Configuration Engine (42_mode_config.md). -/

namespace Sys2Proof.Machine

/-- `SET_MODE m` (42_mode_config.md R122); an operand 5..7 is `IllegalCommand` (30_encoding.md R75). -/
def execSetMode (m : BitVec 3) (s : State) : Host.Outcome State Fault Refusal :=
  s.command (.setMode m) (match modeOf m with
    | some md => setModeSeq s.cfg.chip md
    | none => [])

/-- `SET_HEADER h` (R123): `HDR <- h`, no bus event. -/
def execSetHeader (h : BitVec 1) (s : State) : Host.Outcome State Fault Refusal :=
  s.command (.setHeader h) [.setHdr (headerOf h)]

/-- `SET_FREQUENCY f` (R125). -/
def execSetFrequency (f : BitVec 24) (s : State) : Host.Outcome State Fault Refusal :=
  s.command (.setFrequency f) (setFrequencySeq s.cfg.chip f)

/-- The micro-sequence of `SET_SF x` (R126). -/
def setSfSeq (c : ChipMap) (x : Byte) : List MicroOp :=
  wrLit c.reg.detectOpt (detection x).1 ++ (wrLit c.reg.detectThr (detection x).2 ++
    (fieldWrite c.reg.mc2 0xF0#8 (.lit (spreadingField x)) ++ updateLdo c))

/-- `SET_SF x` (R126). -/
def execSetSf (x : Byte) (s : State) : Host.Outcome State Fault Refusal :=
  s.command (.setSf x) (setSfSeq s.cfg.chip x)

/-- The micro-sequence of `SET_BW hz` (R127). -/
def setBwSeq (c : ChipMap) (hz : BitVec 24) : List MicroOp :=
  fieldWrite c.reg.mc1 0xF0#8 (.lit (bwField hz)) ++ updateLdo c

/-- `SET_BW hz` (R127). -/
def execSetBw (hz : BitVec 24) (s : State) : Host.Outcome State Fault Refusal :=
  s.command (.setBw hz) (setBwSeq s.cfg.chip hz)

/-- `SET_CR d` (R128). -/
def execSetCr (d : Byte) (s : State) : Host.Outcome State Fault Refusal :=
  s.command (.setCr d) (fieldWrite s.cfg.chip.reg.mc1 s.cfg.chip.crMask (.lit (codingField s.cfg.chip d)))

/-- `SET_PREAMBLE len` (R135). -/
def execSetPreamble (len : BitVec 16) (s : State) : Host.Outcome State Fault Refusal :=
  s.command (.setPreamble len) (fieldWrites (preambleList s.cfg.chip len))

/-- `SET_CRC e` (R136). -/
def execSetCrc (e : BitVec 1) (s : State) : Host.Outcome State Fault Refusal :=
  s.command (.setCrc e) (fieldWrite s.cfg.chip.reg.crcAddr s.cfg.chip.crcMask (.lit (crcField s.cfg.chip e)))

/-- `SET_INVERT_IQ e` (R137). -/
def execSetInvertIq (e : BitVec 1) (s : State) : Host.Outcome State Fault Refusal :=
  s.command (.setInvertIq e) (fieldWrites (invertIqList s.cfg.chip e))

/-- `SET_TX_POWER p` (R138). -/
def execSetTxPower (p : Byte) (s : State) : Host.Outcome State Fault Refusal :=
  s.command (.setTxPower p) (wrLit s.cfg.chip.reg.paConfig (paByte s.cfg.chip p))

/-- `SET_OCP ma` (R132). -/
def execSetOcp (ma : Byte) (s : State) : Host.Outcome State Fault Refusal :=
  s.command (.setOcp ma) (wrLit s.cfg.chip.reg.ocp (ocpByte s.cfg.chip ma))

/-- `SET_DIO0_TX_DONE` (R140). -/
def execSetDio0TxDone (s : State) : Host.Outcome State Fault Refusal :=
  s.command .setDio0TxDone (fieldWrites (dio0List s.cfg.chip))

end Sys2Proof.Machine
end

