-- ==== Sys2Proof/Machine/Dispatch.lean ====
section
/-! DEFINITION. One arm per instruction. -/

namespace Sys2Proof.Machine

/-- The meaning of an instruction. -/
def exec (i : Instr) (s : State) : Host.Outcome State Fault Refusal :=
  match i with
  | .rdReg a => Sys2Proof.Machine.execRdReg a s
  | .wrReg a v => Sys2Proof.Machine.execWrReg a v s
  | .init f => Sys2Proof.Machine.execInit f s
  | .setMode m => Sys2Proof.Machine.execSetMode m s
  | .setHeader h => Sys2Proof.Machine.execSetHeader h s
  | .setFrequency f => Sys2Proof.Machine.execSetFrequency f s
  | .setSf x => Sys2Proof.Machine.execSetSf x s
  | .setBw hz => Sys2Proof.Machine.execSetBw hz s
  | .setCr d => Sys2Proof.Machine.execSetCr d s
  | .setPreamble len => Sys2Proof.Machine.execSetPreamble len s
  | .setCrc e => Sys2Proof.Machine.execSetCrc e s
  | .setInvertIq e => Sys2Proof.Machine.execSetInvertIq e s
  | .setTxPower p => Sys2Proof.Machine.execSetTxPower p s
  | .setOcp ma => Sys2Proof.Machine.execSetOcp ma s
  | .setDio0TxDone => Sys2Proof.Machine.execSetDio0TxDone s
  | .getSf => Sys2Proof.Machine.execGetSf s
  | .getBw => Sys2Proof.Machine.execGetBw s
  | .getRssi => Sys2Proof.Machine.execGetRssi s
  | .getSnr => Sys2Proof.Machine.execGetSnr s
  | .getFreqError => Sys2Proof.Machine.execGetFreqError s
  | .transmit => Sys2Proof.Machine.execTransmit s
  | .pollIrq => Sys2Proof.Machine.execPollIrq s
  | .pollIrqT n => Sys2Proof.Machine.execPollIrqT n s
  | .readPacket => Sys2Proof.Machine.execReadPacket s
  | .irqFlags => Sys2Proof.Machine.execIrqFlags s
  | .clearIrq => Sys2Proof.Machine.execClearIrq s
  | .isPacketReady => Sys2Proof.Machine.execIsPacketReady s
  | .busReadFrame a => Sys2Proof.Machine.execBusReadFrame a s
  | .busWriteFrame a d => Sys2Proof.Machine.execBusWriteFrame a d s

end Sys2Proof.Machine
end

