-- ==== Sys2Proof/Machine/Fetch.lean ====
section
/-! DEFINITION. What one step does: the host port hands the idle block its next operation (10_state.md R34, 30_encoding.md R75), or
the running micro-sequence goes on by one primitive (10_state.md R13). -/

namespace Sys2Proof.Machine

/-- A pin primitive's outcome: the platform's reply if one is at hand, else a free one (20_memory.md R40; log entry 6). -/
def performPin (s : State) : State :=
  match s.replies with
  | .pin ok :: rs => perform (.pin ok) { s with replies := rs }
  | _ => perform (.pin (Config.freePin s.drawn)) { s with drawn := s.drawn + 1 }

/-- A transfer's outcome: the platform's reply if one is at hand, else a free one (20_memory.md R41, R52; log entry 6). -/
def performXfer (s : State) : State :=
  match s.replies with
  | .xfer r :: rs => perform (.xfer r) { s with replies := rs }
  | _ => perform (.xfer (Config.freeXfer s.drawn)) { s with drawn := s.drawn + 1 }

/-- A delay returns, whether or not the platform's reply for it is at hand (20_memory.md R42). -/
def performDelay (s : State) : State :=
  match s.replies with
  | .delay :: rs => perform .delay { s with replies := rs }
  | _ => perform .delay s

/-- One step of a busy block: its next primitive returns (60_exceptions.md R198: every primitive does), and `upc` moves on. -/
def resume (s : State) : Host.Outcome State Fault Refusal :=
  match s.upc with
  | .pin _ _ :: _ => .next (performPin s)
  | .recv _ :: _ => .next (performXfer s)
  | .send _ _ :: _ => .next (performXfer s)
  | .delay _ :: _ => .next (performDelay s)
  | .frame f :: rest =>
    match decodeFrame f with
    | .ok i => exec i { s with upc := rest }
    | .error _ => .refused .notAFrame
  | ops => .next (advance ops s)

/-- `Issue(w)` at an idle block (30_encoding.md R75). -/
def issueWord (w : Word) (s : State) : Host.Outcome State Fault Refusal :=
  match decodeCommand s.cfg.widths w with
  | .ok i => exec i s
  | .error _ => .next (s.reject .illegalCommand)

/-- `WriteBuf(TXBUF, i, b)` (10_state.md R34). -/
def hostWriteTx (i b : Byte) (s : State) : Host.Outcome State Fault Refusal :=
  if i.toNat < bufLen then .next { s with txbuf := Buffer.write s.txbuf i.toNat b } else .fault .noSuchBufferByte

/-- `ReadBuf(TXBUF or RXBUF, i)` (10_state.md R34). -/
def hostReadBuf (which : HostBuf) (i : Byte) (s : State) : Host.Outcome State Fault Refusal :=
  if i.toNat < bufLen then
    match which with
    | .tx => .next { s with hostData := (s.txAt i.toNat).setWidth 32 }
    | .rx => .next { s with hostData := (s.rxAt i.toNat).setWidth 32 }
  else .fault .noSuchBufferByte

/-- A host operation, at a block that admits it (10_state.md R34; block reset, 70_reset_and_hazards.md R210). A host that lets
a primitive go by leaves the step to the running command (DESIGN CHOICE, log entry 20). -/
def hostOp (op : HostOp) (s : State) : Host.Outcome State Fault Refusal :=
  match op with
  | .issue w => issueWord w s
  | .writeTx i b => hostWriteTx i b s
  | .writeTxLen b => .next { s with txlen := b }
  | .readReg r => .next { s with hostData := s.readReg r }
  | .readBuf which i => hostReadBuf which i s
  | .blockReset => .next s.blockReset
  | .wait => if s.busy then resume s else .next s

/-- One step. An idle block takes the host's next operation and rests when there is none; a busy block takes only what the
host may do then (10_state.md R34), and otherwise goes on with its command while the host waits (70_reset_and_hazards.md R221).
The spec leaves open at which primitive boundary of a running command a read of `BUSY` or `LIFE` or a block reset lands: it is
taken at once, before the next primitive, unless the host's list first lets primitives go by (`HostOp.wait`). DESIGN CHOICE
(log entries 1, 10, 20). -/
def nextStep (s : State) : Host.Outcome State Fault Refusal :=
  match s.host with
  | op :: rest =>
    if s.busy && !allowedBusy op then resume s else hostOp op { s with host := rest }
  | [] => if s.busy then resume s else .next s

/-- The host's next operation is `Issue(w)` and the block is idle, so that the next step accepts `w`. -/
def placeCommand (s : State) (w : Word) : State :=
  { s with busy := false, upc := [], latch := none, host := .issue w :: s.host }

/-- The running micro-sequence is the one frame `f` and the host waits, so that the next step sends `f`. -/
def placeFrame (s : State) (f : FrameWord) : State :=
  { s with busy := true, upc := [.frame f], latch := none, host := [] }

end Sys2Proof.Machine
end

