-- ==== Sys2Proof/Machine/Step.lean ====
section
/-! DEFINITION. The step of the machine. -/

namespace Sys2Proof.Machine

/-- One step of the machine. -/
def step (s : State) : Host.Outcome State Fault Refusal := nextStep s

/-- `s` with an instruction stored where the next step fetches: a command word as the host's next operation, a frame word as
the running micro-sequence. -/
def State.withFetchWord (s : State) (nbits w : Nat) : State :=
  if nbits = 16 then placeFrame s (BitVec.ofNat 16 w) else placeCommand s (BitVec.ofNat 32 w)

end Sys2Proof.Machine
end

