-- ==== Sys2Proof/Safety.lean ====
section
/-! DEFINITION. The vocabulary of claims: admissible parameters, idle and ready states, the replies and the trace of successful
transactions, the state a completed or failed command leaves, and the invariant of the machine. -/

namespace Sys2Proof

/-! ### Admissible parameters -/

/-- One bit set. -/
def oneBit (b : Byte) : Bool := (List.range 8).any fun k => decide (b = BitVec.ofNat 8 (2 ^ k))

/-- Every triple keeps its value inside its mask (20_memory.md R46: "`val & ~mask = 0`"). -/
def triplesOk (l : List FieldTriple) : Bool := l.all fun f => decide (f.val &&& ~~~f.mask = 0#8)

/-- `MODE_BITS` has "five distinct values inside `MODE_MASK`" (00_scope.md R6). -/
def ModeBits.ok (b : ModeBits) (mask : Byte) : Bool :=
  let l := [b.sleep, b.standby, b.transmit, b.receiveContinuous, b.receiveSingle]
  decide l.Nodup && l.all fun x => decide (x &&& ~~~mask = 0#8)

/-- The constraint column of 00_scope.md R6, for the masks. -/
def ChipMap.masksOk (c : ChipMap) : Bool :=
  oneBit c.lrBit && decide (c.lrBit &&& c.modeMask = 0#8) && c.modeBits.ok c.modeMask &&
    decide (c.hdrMask ≠ 0#8) && decide (c.hdrMask &&& 0xF0#8 = 0#8) && decide (c.hdrMask &&& c.crMask = 0#8) &&
    decide (c.crMask = 0x07#8 <<< c.crShift) && decide (c.crMask &&& 0xF0#8 = 0#8) && decide (c.crShift ≤ 1) &&
    oneBit c.ldoMask && oneBit c.initMc3Value &&
    (List.range 28).all (fun t => decide (BitVec.ofNat 8 t &&& c.ocpTrimMask = BitVec.ofNat 8 t)) &&
    decide (((List.range 8).filter fun k => c.feMsbMask.getLsbD k).length = 3)

/-- The constraint column of 00_scope.md R6, for the addresses. -/
def ChipMap.addressesOk (c : ChipMap) : Bool :=
  decide (c.reg.frfMsb.toNat ≤ 0x7D) && decide (c.reg.fifoTxBase ≠ c.reg.fifoRxBase) && decide (c.reg.mc2 ≠ c.reg.mc1) &&
    decide [c.reg.freqErrorMsb, c.reg.freqErrorMid, c.reg.freqErrorLsb].Nodup && decide (c.reg.detectOpt ≠ c.reg.detectThr)

/-- The open lists and functions are total and keep to R46's condition. -/
def ChipMap.listsOk (c : ChipMap) : Bool :=
  (match c.paMap with
    | .boost => true
    | .table b => decide (b.length = 256)) &&
  (match c.preambleSeq with
    | .registerPair => true
    | .table rows => decide (rows.length = 65536) && rows.all triplesOk) &&
  (match c.invertIqSeq with
    | .bitSix => true
    | .lists off on => triplesOk off && triplesOk on) &&
  (match c.dio0TxDoneSeq with
    | .mappingByte => true
    | .list l => triplesOk l)

/-- A chip map that meets every constraint of 00_scope.md R6. -/
abbrev ChipMap.Admissible (c : ChipMap) : Prop := (c.masksOk && c.addressesOk && c.listsOk) = true

end Sys2Proof

namespace Sys2Proof.Machine

/-! ### States -/

/-- The block is idle: `BUSY = 0`, `upc` has no value, no command is latched (10_state.md R13). -/
abbrev State.Idle (s : State) : Prop := s.busy = false ∧ s.upc = [] ∧ s.latch = none

/-- The block is idle and `LIFE = Ready` (30_encoding.md R75). -/
abbrev State.Ready (s : State) : Prop := s.Idle ∧ s.life = .ready

/-- The state a successful command leaves (10_state.md R13): `STATUS` 0x00, `RESULT` `r`, the events `evs` behind the trace, the
replies `rest` unused, chip-select high if there was an event, other working registers `w`, and nothing else changed. -/
def State.done (s : State) (r : Word) (w : Work) (evs : List Event) (rest : List Reply) : State :=
  { s with
    status := 0x00
    result := r
    work := w
    trace := s.trace ++ evs
    replies := rest
    csShadow := if evs = [] then s.csShadow else .high }

/-- The same for a command that ends with an error, none of the pin and transport faults (60_exceptions.md R184): `STATUS` the
code and `RESULT` the information of its row in R180. -/
def State.doneErr (s : State) (code : Byte) (info : Word) (w : Work) (evs : List Event) (rest : List Reply) : State :=
  { s.done info w evs rest with status := code }

/-- The state a pin or transport fault leaves (60_exceptions.md R181 to R184): the failed primitive's event `e` is the last, no
chip-select release follows it, `RESULT` is 0, `CS_SHADOW` unknown, and `LIFE` Failed where `INIT` was running. -/
def State.faulted (s : State) (code : Byte) (e : Event) : State :=
  { s with
    trace := s.trace ++ [e]
    status := code
    result := 0
    busy := false
    upc := []
    latch := none
    csShadow := .unknown
    life := if isInit s.latch then .failed else s.life }

/-- The host does nothing next that a busy block admits (10_state.md R34; block reset, 70_reset_and_hazards.md R210; letting a
primitive go by, log entry 20). -/
def State.HostWaits (s : State) : Prop :=
  ∀ (op : HostOp) (rest : List HostOp), s.host = op :: rest →
    op ≠ .readReg .life ∧ op ≠ .readReg .busy ∧ op ≠ .blockReset ∧ op ≠ .wait

/-- The outcome of the next pin operation, and the state with it taken: the reply at hand, or, where none of its kind is at
hand, the next free value (20_memory.md R40; log entry 6). -/
def State.PinOutcome (s : State) (ok : Bool) (u : State) : Prop :=
  (∃ rs, s.replies = .pin ok :: rs ∧ u = { s with replies := rs }) ∨
    ((∀ b rs, s.replies ≠ .pin b :: rs) ∧ ok = Config.freePin s.drawn ∧ u = { s with drawn := s.drawn + 1 })

/-- The same of the next transfer (20_memory.md R41, R52; log entry 6). -/
def State.XferOutcome (s : State) (r : Option (Byte × Byte)) (u : State) : Prop :=
  (∃ rs, s.replies = .xfer r :: rs ∧ u = { s with replies := rs }) ∨
    ((∀ x rs, s.replies ≠ .xfer x :: rs) ∧ r = Config.freeXfer s.drawn ∧ u = { s with drawn := s.drawn + 1 })

/-- A delay returns, and uses the reply for it if one is at hand (20_memory.md R42). -/
def State.DelayOutcome (s : State) (u : State) : Prop :=
  (∃ rs, s.replies = .delay :: rs ∧ u = { s with replies := rs }) ∨ ((∀ rs, s.replies ≠ .delay :: rs) ∧ u = s)

/-! ### Replies and events of successful transactions -/

/-- The three replies of a transaction that succeeds and answers the bytes `p`. -/
def txn (p : Byte × Byte) : List Reply := [.pin true, .xfer (some p), .pin true]

/-- The replies of successful transactions, one after another. -/
def script : List (Byte × Byte) → List Reply
  | [] => []
  | p :: ps => txn p ++ script ps

/-- The replies of status reads that find the bit clear, each followed by its delay. -/
def pollScript : List (Byte × Byte) → List Reply
  | [] => []
  | p :: ps => txn p ++ (.delay :: pollScript ps)

/-- The replies of a reset pulse that succeeds. -/
def pulseScript : List Reply := [.pin true, .delay, .pin true, .delay]

/-- The events of a successful `RD(a)` (00_scope.md R8: `RD a -> p.2`). -/
def rdEv (a : RegAddr) (p : Byte × Byte) : List Event :=
  [.pin .cs .low true, .xfer (readHeader a) 0x00 (some p), .pin .cs .high true]

/-- The events of a successful `WR(a, v)` (00_scope.md R8: `WR a <- v`). -/
def wrEv (a : RegAddr) (v : Byte) (p : Byte × Byte) : List Event :=
  [.pin .cs .low true, .xfer (writeHeader a) v (some p), .pin .cs .high true]

/-- How many transactions a field-write list makes (20_memory.md R46). -/
def fieldTxns : List FieldTriple → Nat
  | [] => 0
  | f :: fs => (if f.mask = 0xFF#8 then 1 else 2) + fieldTxns fs

/-- The events of a field-write list answered by `ps` (20_memory.md R46): one write where the mask is 0xFF, else a read and a
write that keeps the bits outside the mask as read. -/
def fieldEvents : List FieldTriple → List (Byte × Byte) → List Event
  | [], _ => []
  | _ :: _, [] => []
  | f :: fs, p :: ps =>
    if f.mask = 0xFF#8 then wrEv f.addr f.val p ++ fieldEvents fs ps
    else
      match ps with
      | [] => []
      | q :: qs => rdEv f.addr p ++ (wrEv f.addr ((p.2 &&& ~~~f.mask) ||| f.val) q ++ fieldEvents fs qs)

/-- `HDR = 1 ? HDR_MASK : 0x00` (42_mode_config.md R120). -/
def headerValue (c : ChipMap) (h : HeaderMode) : Byte := if h = .implicit then c.hdrMask else 0x00

/-- `ApplyHeader()` as a field-write list (42_mode_config.md R120). -/
def headerTriples (c : ChipMap) (h : HeaderMode) : List FieldTriple :=
  [{ addr := c.reg.mc1, mask := c.hdrMask, val := headerValue c h }]

/-- The writes of `SetMode(m)` as a field-write list (42_mode_config.md R121). -/
def modeTriples (c : ChipMap) (h : HeaderMode) (m : Mode) : List FieldTriple :=
  headerTriples c h ++ [{ addr := c.reg.opMode, mask := 0xFF, val := modeByte c m }]

/-- The writes of `SetFrequency(f)` as a field-write list (42_mode_config.md R124). -/
def freqTriples (c : ChipMap) (f : BitVec 24) : List FieldTriple :=
  [{ addr := c.reg.frfMsb, mask := 0xFF, val := frfMsb f },
   { addr := c.reg.frfMsb + 1, mask := 0xFF, val := frfMid f },
   { addr := c.reg.frfMsb + 2, mask := 0xFF, val := frfLsb f }]

/-- Step 3 of `INIT f` as a field-write list (41_initialization.md R110). -/
def initTriples (c : ChipMap) (f : BitVec 24) : List FieldTriple :=
  modeTriples c .explicit .sleep ++ (freqTriples c f ++
    ([{ addr := c.reg.fifoTxBase, mask := 0xFF, val := 0x00 },
      { addr := c.reg.fifoRxBase, mask := 0xFF, val := 0x00 },
      { addr := c.reg.lna, mask := c.lnaBoostMask, val := c.lnaBoostMask },
      { addr := c.reg.mc3, mask := 0xFF, val := c.initMc3Value }] ++ modeTriples c .explicit .standby))

/-- `LIFE` inside an `INIT` that has performed `k` events: Resetting until the fourth, the second delay; VersionCheck until the
three of the version read; then Configuring (41_initialization.md R110, R111). -/
def initPhase (k : Nat) : Life := if k < 4 then .resetting else if k < 7 then .versionCheck else .configuring

/-- The four events of the reset pulse (70_reset_and_hazards.md R211). -/
def pulseEvents : List Event := [.pin .reset .low true, .delay 10, .pin .reset .high true, .delay 10]

/-- The flag's field write in `UpdateLdo` once bandwidth and spreading factor are read (42_mode_config.md R130). -/
def ldoTriples (c : BlockConfig) (sf hz : Nat) : List FieldTriple :=
  [{ addr := c.chip.reg.mc3, mask := c.chip.ldoMask, val := if ldoFlag c.ldoArith sf hz then c.chip.ldoMask else 0x00 }]

/-- The payload writes of `TRANSMIT` from index `i` (44_packet_io.md R161). -/
def payloadEvents (s : State) : Nat → List (Byte × Byte) → List Event
  | _, [] => []
  | i, p :: ps => wrEv s.cfg.chip.reg.fifo (s.txAt i) p ++ payloadEvents s (i + 1) ps

/-- Status reads that found the bit clear, each followed by its delay (44_packet_io.md R163, R164). -/
def pollEvents (irq : RegAddr) (ms : Nat) : List (Byte × Byte) → List Event
  | [] => []
  | p :: ps => rdEv irq p ++ (.delay ms :: pollEvents irq ms ps)

/-- Successive reads of one register. -/
def readEvents (a : RegAddr) : List (Byte × Byte) → List Event
  | [] => []
  | p :: ps => rdEv a p ++ readEvents a ps

/-- The buffer after `RXBUF[i]`, `RXBUF[i+1]`, … took the bytes read (44_packet_io.md R165). -/
def writeFrom (m : Buffer) : Nat → List (Byte × Byte) → Buffer
  | _, [] => m
  | i, p :: ps => writeFrom (Buffer.write m i p.2) (i + 1) ps

/-! ### The opcode map, for claims about acceptance -/

/-- The operand bits above the lowest `k`. -/
def bitsAbove (k : Nat) : Word := BitVec.ofNat 32 (2 ^ 24 - 2 ^ min k 24)

/-- The opcode map of 30_encoding.md R76: opcode and must-be-zero mask, at the open widths `ws` (00_scope.md R7). -/
def opcodeMap (ws : Widths) : List (Byte × Word) :=
  [(0x01, 0x00FFFF80), (0x02, 0x00FF8000), (0x10, bitsAbove ws.freqW), (0x20, 0x00FFFFF8), (0x21, 0x00FFFFFE),
   (0x22, bitsAbove ws.freqW), (0x23, 0x00FFFF00), (0x24, 0x00000000), (0x25, 0x00FFFF00), (0x26, 0x00FF0000),
   (0x27, 0x00FFFFFE), (0x28, 0x00FFFFFE), (0x29, 0x00FFFF00), (0x2A, 0x00FFFF00), (0x2B, 0x00FFFFFF), (0x30, 0x00FFFFFF),
   (0x31, 0x00FFFFFF), (0x32, 0x00FFFFFF), (0x33, 0x00FFFFFF), (0x34, 0x00FFFFFF), (0x40, 0x00FFFFFF), (0x41, 0x00FFFFFF),
   (0x42, bitsAbove ws.timeoutW), (0x43, 0x00FFFFFF), (0x44, 0x00FFFFFF), (0x45, 0x00FFFFFF), (0x46, 0x00FFFFFF)]

/-- The mask of an opcode, none where R76 assigns it to nothing. -/
def mbzOf (ws : Widths) (op : Byte) : Option Word := ((opcodeMap ws).find? fun r => decide (r.1 = op)).map (·.2)

/-- A host command, not a bus frame. -/
def isCommand : Instr → Bool
  | .busReadFrame _ => false
  | .busWriteFrame _ _ => false
  | _ => true

/-! ### The invariant -/

/-- The lifecycle states a resting block can be in (41_initialization.md R111). -/
def Life.resting : Life → Bool
  | .poweredUnknown => true
  | .ready => true
  | .failed => true
  | .resetting => false
  | .versionCheck => false
  | .configuring => false

/-- `LIFE` once the rest of a micro-sequence has run to its end. -/
def finalLife : Life → List MicroOp → Life
  | l, [] => l
  | l, op :: rest =>
    match op with
    | .setLife l' => finalLife l' rest
    | .ret _ => l
    | _ => finalLife l rest

/-- A step that writes `LIFE`. -/
def movesLife : MicroOp → Bool
  | .setLife _ => true
  | _ => false

/-- A step that is a raw bus frame. -/
def isFrame : MicroOp → Bool
  | .frame _ => true
  | _ => false

/-- The `STATUS` values the block produces: the table of 60_exceptions.md R180 less the reserved 0x06. -/
def producedCodes : List Byte := [0x00, 0x01, 0x02, 0x03, 0x04, 0x05, 0x80, 0x81, 0x82]

/-- What holds of a running command: it is latched; an `INIT` will leave `LIFE` Ready when it reaches its end; any other runs
in Ready and does not write `LIFE` (41_initialization.md R111). -/
def runningOk (s : State) : Bool :=
  decide (s.latch ≠ none) &&
    (if isInit s.latch then decide (finalLife s.life s.upc = .ready)
     else decide (s.life = .ready) && s.upc.all fun op => !movesLife op)

/-- A step that writes `FREQ` writes a value of `FREQ_W` bits. -/
def freqFits (ws : Widths) : MicroOp → Bool
  | .setFreq f => decide (f.toNat < 2 ^ ws.freqW)
  | _ => true

/-- The invariant: `BUSY` agrees with `upc` (10_state.md R13), a resting block is in a resting lifecycle state with nothing
latched (41_initialization.md R111), a running one as `runningOk` says, no raw frame waits, `STATUS` is a produced code
(60_exceptions.md R180), both buffers are canonical, and `FREQ` keeps to its `FREQ_W` bits (10_state.md R16). -/
def State.inv (s : State) : Bool :=
  decide (s.busy = true ↔ s.upc ≠ []) &&
    (if s.busy then runningOk s else s.life.resting && decide (s.latch = none)) &&
    s.upc.all (fun op => !isFrame op) && producedCodes.contains s.status && Buffer.wf s.txbuf && Buffer.wf s.rxbuf &&
    s.upc.all (freqFits s.cfg.widths) && decide (s.freq.toNat < 2 ^ s.cfg.widths.freqW)

/-- The invariant as a proposition. -/
abbrev State.Inv (s : State) : Prop := s.inv = true

end Sys2Proof.Machine
end

