-- ==== Sys2Proof/Certificates/Slice0/Obligations.lean ====
section
/-! DEFINITION. The statements for the provers. -/

open Sys2Proof Sys2Proof.Machine

/-! ### Encoding and acceptance -/

/-- At any open widths, every well-formed command and frame is decoded from its own encoding (30_encoding.md R70, R73, R74, R76;
00_scope.md R7). -/
def Obligations.DecodeOfEncode : Prop :=
  ∀ (ws : Widths) (i : Instr), WellFormed ws i → decode ws (encode i) = .ok i

/-- A word that decodes is the encoding of what it decodes to, so no bit of it is ignored (30_encoding.md R73 to R77). -/
def Obligations.EncodeOfDecode : Prop :=
  ∀ (ws : Widths) (c : Code) (i : Instr), decode ws c = .ok i → WellFormed ws i ∧ encode i = c

/-- Words written out in 30_encoding.md R88, R72 and 95_test_vectors.md 3.1, and two words that other open widths (00_scope.md R7)
read otherwise. -/
def Obligations.SpecWordsDecode : Prop :=
  decode defaultWidths (.command 0x23000007) = .ok (.setSf 7) ∧
  decode defaultWidths (.command 0x02003934) = .ok (.wrReg 0x39 0x34) ∧
  decode defaultWidths (.command 0x10000393) = .ok (.init 915) ∧
  decode defaultWidths (.command 0x2401E848) = .ok (.setBw 125000) ∧
  decode defaultWidths (.command 0x42000005) = .ok (.pollIrqT 5) ∧
  decode defaultWidths (.frame 0x4200) = .ok (.busReadFrame 0x42) ∧
  decode defaultWidths (.frame 0x8181) = .ok (.busWriteFrame 0x01 0x81) ∧
  decode defaultWidths (.command 0x01000080) = .error .reservedBits ∧
  decode defaultWidths (.command 0x20000005) = .error .modeOutOfRange ∧
  decode defaultWidths (.command 0x03000000) = .error .unassignedOpcode ∧
  decode defaultWidths (.command 0x10000400) = .error .reservedBits ∧
  decode { freqW := 11, timeoutW := 8 } (.command 0x10000400) = .ok (.init 1024) ∧
  decode { freqW := 11, timeoutW := 8 } (.command 0x42000100) = .error .reservedBits

/-- The step of an idle block whose host issues a word that decodes is the meaning of that command, with the operation taken
off the host's list (10_state.md R13, 30_encoding.md R75). -/
def Obligations.StepRunsIssuedCommand : Prop :=
  ∀ (s : State) (w : Word) (rest : List HostOp) (i : Instr),
    s.busy = false → s.host = .issue w :: rest → decodeCommand s.cfg.widths w = .ok i →
      step s = exec i { s with host := rest }

/-- The step of a busy block whose micro-sequence stands at a frame word is the meaning of that frame, with the word taken off
the micro-sequence; no host operation is pending. That a frame runs as an instruction of its own is the model's choice (log
entry 8). -/
def Obligations.StepRunsFrameWord : Prop :=
  ∀ (s : State) (f : FrameWord) (ops : List MicroOp) (i : Instr),
    s.busy = true → s.host = [] → s.upc = .frame f :: ops → decodeFrame f = .ok i →
      step s = exec i { s with upc := ops }

/-- Decode and acceptance, test by test in the fixed order of 30_encoding.md R75, with the map of R76 written out a second time,
at any open widths (00_scope.md R7). -/
def Obligations.AcceptanceTestsInOrder : Prop :=
  ∀ (s : State) (w : Word) (rest : List HostOp), s.busy = false → s.host = .issue w :: rest →
    (mbzOf s.cfg.widths (w.extractLsb' 24 8) = none →
      step s = .next { s with host := rest, status := 0x80, result := 0 }) ∧
    (∀ mbz, mbzOf s.cfg.widths (w.extractLsb' 24 8) = some mbz → w &&& mbz ≠ 0 →
      step s = .next { s with host := rest, status := 0x80, result := 0 }) ∧
    (∀ mbz, mbzOf s.cfg.widths (w.extractLsb' 24 8) = some mbz → w &&& mbz = 0 → w.extractLsb' 24 8 = 0x20 → 4 < (w.extractLsb' 0 3).toNat →
      step s = .next { s with host := rest, status := 0x80, result := 0 }) ∧
    (∀ mbz, mbzOf s.cfg.widths (w.extractLsb' 24 8) = some mbz → w &&& mbz = 0 →
      (w.extractLsb' 24 8 = 0x20 → (w.extractLsb' 0 3).toNat ≤ 4) →
      w.extractLsb' 24 8 ≠ 0x10 → s.life ≠ .ready →
      step s = .next { s with host := rest, status := 0x81, result := 0 }) ∧
    (∀ mbz, mbzOf s.cfg.widths (w.extractLsb' 24 8) = some mbz → w &&& mbz = 0 →
      (w.extractLsb' 24 8 = 0x20 → (w.extractLsb' 0 3).toNat ≤ 4) →
      (w.extractLsb' 24 8 = 0x10 ∨ s.life = .ready) →
      ∃ (i : Instr) (ops : List MicroOp), encode i = .command w ∧ step s = exec i { s with host := rest } ∧
        step s = .next
          (run s.replies.length (advance ops { s with host := rest, busy := true, latch := some i })))

/-- A legal command other than `INIT` while `LIFE` is not Ready changes `STATUS` and `RESULT` only (60_exceptions.md R189). -/
def Obligations.NotReadyChangesNothingElse : Prop :=
  ∀ (i : Instr) (s : State), WellFormed s.cfg.widths i → isCommand i = true → isInit (some i) = false →
    s.busy = false → s.life ≠ .ready → exec i s = .next { s with status := 0x81, result := 0 }

/-- While `BUSY = 1` nothing is accepted: no command's meaning runs, and no host operation but a read of `BUSY` or `LIFE`, a
block reset, or the passing of a primitive leaves the host's list (60_exceptions.md R197, 10_state.md R34). The passing of a
primitive is one step of the running command as if the host did nothing, so that the list says at which primitive boundary
its next read or block reset lands (70_reset_and_hazards.md R210, R221). That a command's meaning refuses, that the host's
operation waits in its list, and the passing of a primitive are the model's choices (log entries 10, 20). -/
def Obligations.BusyBlockAcceptsNothing : Prop :=
  (∀ (i : Instr) (s : State), isCommand i = true → s.busy = true → exec i s = .refused .issueWhileBusy) ∧
  (∀ (s t : State) (op : HostOp) (rest : List HostOp), s.busy = true → s.host = op :: rest →
    op ≠ .readReg .life → op ≠ .readReg .busy → op ≠ .blockReset → op ≠ .wait → step s = .next t → t.host = op :: rest) ∧
  (∀ (s t : State) (rest : List HostOp), s.busy = true → s.host = .wait :: rest → step { s with host := [] } = .next t →
    step s = .next { t with host := rest })

/-! ### Transactions, faults and the whole machine -/

/-- `RD(a)` as the frame it sends (20_memory.md R43): bit 7 of its first byte is 0 and bits 6:0 are the address, the second byte
is 0x00, the value is the second byte received, there are three events, and a fault at each of them aborts there (R47).
That a frame runs as an instruction of its own, with the value left in `T`, is the model's choice (log entry 8). -/
def Obligations.ReadTransaction : Prop :=
  ∀ (s : State) (a : RegAddr) (rest : List Reply) (p : Byte × Byte),
    (readHeader a).getLsbD 7 = false ∧ (readHeader a).extractLsb' 0 7 = a ∧
    (s.replies = txn p ++ rest →
      exec (.busReadFrame a) s = .next (advance s.upc
        { s with
          busy := true
          csShadow := .high
          replies := rest
          work := { s.work with rx := p.2, t := p.2 }
          trace := s.trace ++ [.pin .cs .low true, .xfer (readHeader a) 0x00 (some p), .pin .cs .high true] })) ∧
    (s.replies = .pin false :: rest →
      exec (.busReadFrame a) s = .next (State.faulted { s with replies := rest } 0x01 (.pin .cs .low false))) ∧
    (s.replies = .pin true :: .xfer none :: rest →
      exec (.busReadFrame a) s = .next (State.faulted
        { s with csShadow := .low, replies := rest, trace := s.trace ++ [.pin .cs .low true] } 0x03 (.xfer (readHeader a) 0x00 none))) ∧
    (s.replies = .pin true :: .xfer (some p) :: .pin false :: rest →
      exec (.busReadFrame a) s = .next (State.faulted
        { s with
          replies := rest
          work := { s.work with rx := p.2 }
          trace := s.trace ++ [.pin .cs .low true, .xfer (readHeader a) 0x00 (some p)] } 0x01 (.pin .cs .high false)))

/-- `WR(a, d)` as the frame it sends (20_memory.md R44): bit 7 of its first byte is 1 and bits 6:0 are the address, the second
byte is the value, both received bytes are discarded, and a fault at each of its three events aborts there (R47). That a frame
runs as an instruction of its own is the model's choice (log entry 8). -/
def Obligations.WriteTransaction : Prop :=
  ∀ (s : State) (a : RegAddr) (d : Byte) (rest : List Reply) (p : Byte × Byte),
    (writeHeader a).getLsbD 7 = true ∧ (writeHeader a).extractLsb' 0 7 = a ∧
    (s.replies = txn p ++ rest →
      exec (.busWriteFrame a d) s = .next (advance s.upc
        { s with
          busy := true
          csShadow := .high
          replies := rest
          trace := s.trace ++ [.pin .cs .low true, .xfer (writeHeader a) d (some p), .pin .cs .high true] })) ∧
    (s.replies = .pin false :: rest →
      exec (.busWriteFrame a d) s = .next (State.faulted { s with replies := rest } 0x01 (.pin .cs .low false))) ∧
    (s.replies = .pin true :: .xfer none :: rest →
      exec (.busWriteFrame a d) s = .next (State.faulted
        { s with csShadow := .low, replies := rest, trace := s.trace ++ [.pin .cs .low true] } 0x03 (.xfer (writeHeader a) d none))) ∧
    (s.replies = .pin true :: .xfer (some p) :: .pin false :: rest →
      exec (.busWriteFrame a d) s = .next (State.faulted
        { s with
          replies := rest
          trace := s.trace ++ [.pin .cs .low true, .xfer (writeHeader a) d (some p)] } 0x01 (.pin .cs .high false)))

/-- `FieldWrite(a, mask, val)` (20_memory.md R46), in any micro-sequence and with any value: one direct write where the mask is
0xFF, else a read into `T` and a write, always issued, that keeps the bits of `T` outside the mask. -/
def Obligations.FieldWriteKeepsOtherBits : Prop :=
  ∀ (s : State) (a : RegAddr) (mask : Byte) (v : FieldVal) (ops : List MicroOp) (rest : List Reply) (p q : Byte × Byte) (n : Nat),
    (mask = 0xFF#8 → s.replies = txn p ++ rest →
      run (n + 3) (advance (fieldWrite a mask v ++ ops) s) = run n (advance ops
        { s with csShadow := .high, replies := rest, trace := s.trace ++ wrEv a (s.fieldVal v) p })) ∧
    (mask ≠ 0xFF#8 → s.replies = txn p ++ (txn q ++ rest) →
      run (n + 6) (advance (fieldWrite a mask v ++ ops) s) = run n (advance ops
        { s with
          csShadow := .high
          replies := rest
          work := { s.work with rx := p.2, t := p.2 }
          trace := s.trace ++ (rdEv a p ++ wrEv a ((p.2 &&& ~~~mask) ||| s.fieldVal v) q) }))

/-- A failing primitive aborts the running command (60_exceptions.md R184 with R181 to R183; 20_memory.md R47), whether its
failure is the reply at hand or a free value (log entry 6) and whether or not a host operation waits: one event more, nothing
further, no release of chip-select; `CS_SHADOW` unknown, `RST_SHADOW` unknown for the reset pin; `LIFE` Failed for `INIT` and
unchanged else; the code in `STATUS`, 0 in `RESULT`, `BUSY` 0. -/
def Obligations.FailingPrimitiveAborts : Prop :=
  ∀ (s u : State) (ops : List MicroOp), s.busy = true → s.HostWaits →
    (∀ l : Level, s.upc = .pin .cs l :: ops → s.PinOutcome false u →
      step s = .next
        { u with
          trace := s.trace ++ [.pin .cs l false], status := 0x01, result := 0, busy := false, upc := [], latch := none,
          csShadow := .unknown, life := if isInit s.latch then .failed else s.life }) ∧
    (∀ l : Level, s.upc = .pin .reset l :: ops → s.PinOutcome false u →
      step s = .next
        { u with
          trace := s.trace ++ [.pin .reset l false], status := 0x02, result := 0, busy := false, upc := [], latch := none,
          csShadow := .unknown, rstShadow := .unknown, life := if isInit s.latch then .failed else s.life }) ∧
    (∀ a : RegAddr, s.upc = .recv a :: ops → s.XferOutcome none u →
      step s = .next
        { u with
          trace := s.trace ++ [.xfer (readHeader a) 0x00 none], status := 0x03, result := 0, busy := false, upc := [],
          latch := none, csShadow := .unknown, life := if isInit s.latch then .failed else s.life }) ∧
    (∀ (a : RegAddr) (src : ByteSrc), s.upc = .send a src :: ops → s.XferOutcome none u →
      step s = .next
        { u with
          trace := s.trace ++ [.xfer (writeHeader a) (s.byteOf src) none], status := 0x03, result := 0, busy := false, upc := [],
          latch := none, csShadow := .unknown, life := if isInit s.latch then .failed else s.life })

/-- One step of a busy block at its next primitive, whatever the outcome and wherever it comes from, a reply at hand or a free
value (log entry 6), and whether or not a host operation waits (10_state.md R13, R22; 20_memory.md R40 to R42): a success adds
the primitive's event, sets the pin's shadow or holds the second byte of a read, and the rest of the micro-sequence goes on; a
failure leaves `State.faulted`. A delay always succeeds, and is a step of its own. -/
def Obligations.PrimitiveStepGoesOnOrAborts : Prop :=
  ∀ (s u : State) (ops : List MicroOp), s.busy = true → s.HostWaits →
    (∀ (l : Level) (ok : Bool), s.upc = .pin .cs l :: ops → s.PinOutcome ok u →
      step s = .next (if ok then
          advance ops
            { u with trace := s.trace ++ [.pin .cs l true], csShadow := if l = .high then .high else .low }
        else u.faulted 0x01 (.pin .cs l false))) ∧
    (∀ (l : Level) (ok : Bool), s.upc = .pin .reset l :: ops → s.PinOutcome ok u →
      step s = .next (if ok then
          advance ops
            { u with trace := s.trace ++ [.pin .reset l true], rstShadow := if l = .high then .high else .low }
        else { u.faulted 0x02 (.pin .reset l false) with rstShadow := .unknown })) ∧
    (∀ (a : RegAddr) (r : Option (Byte × Byte)), s.upc = .recv a :: ops → s.XferOutcome r u →
      step s = .next (match r with
        | some p =>
          advance ops
            { u with trace := s.trace ++ [.xfer (readHeader a) 0x00 (some p)], work := { s.work with rx := p.2 } }
        | none => u.faulted 0x03 (.xfer (readHeader a) 0x00 none))) ∧
    (∀ (a : RegAddr) (src : ByteSrc) (r : Option (Byte × Byte)), s.upc = .send a src :: ops → s.XferOutcome r u →
      step s = .next (match r with
        | some p => advance ops { u with trace := s.trace ++ [.xfer (writeHeader a) (s.byteOf src) (some p)] }
        | none => u.faulted 0x03 (.xfer (writeHeader a) (s.byteOf src) none))) ∧
    (∀ n : Nat, s.upc = .delay n :: ops → s.DelayOutcome u →
      step s = .next (advance ops { u with trace := s.trace ++ [.delay n] }))

/-- No step produces a `STATUS` outside the table of 60_exceptions.md R180, nor the reserved 0x06 (R187). -/
def Obligations.StatusStaysProduced : Prop :=
  ∀ s t : State, s.status ∈ producedCodes → step s = .next t → t.status ∈ producedCodes

/-- `STATUS` and `RESULT` are written at completion or abort only, never during execution (10_state.md R17, R18). -/
def Obligations.StatusWrittenOnlyAtTheEnd : Prop :=
  (∀ (i : Instr) (s t : State), exec i s = .next t → t.busy = true → t.status = s.status ∧ t.result = s.result) ∧
  (∀ s t : State, s.busy = true → s.host = [] → step s = .next t → t.busy = true →
    t.status = s.status ∧ t.result = s.result)

/-- The invariant holds after reset. -/
def Obligations.InvariantAtReset : Prop := State.reset.Inv

/-- Every step keeps the invariant: `BUSY` agrees with `upc`, a resting block's `LIFE` is PoweredUnknown, Ready or Failed, a
running `INIT` is on its way to Ready and any other command runs in Ready, `STATUS` is a produced code, the buffers stay
canonical, `FREQ` keeps to its `FREQ_W` bits (10_state.md R13, R16, 41_initialization.md R111, 60_exceptions.md R180). -/
def Obligations.StepKeepsInvariant : Prop :=
  ∀ s t : State, s.Inv → step s = .next t → t.Inv

/-- From a state that meets the invariant a step always answers, unless the host names byte 255 of a 255-byte buffer: decode is
total and every primitive returns (30_encoding.md R75, 60_exceptions.md R198). The fault at byte 255 is DEDUCED (log entry 9). -/
def Obligations.StepAlwaysAnswers : Prop :=
  ∀ s : State, s.Inv → (∀ (i b : Byte) (r : List HostOp), s.host = .writeTx i b :: r → i.toNat < 255) →
    (∀ (which : HostBuf) (i : Byte) (r : List HostOp), s.host = .readBuf which i :: r → i.toNat < 255) →
    ∃ t, step s = .next t

/-- What block reset leaves, where the spec gives the value (70_reset_and_hazards.md R210, 10_state.md R35), and the block
parameters at their defaults (00_scope.md R7). -/
def Obligations.ResetLeavesGivenValues : Prop :=
  State.reset.life = .poweredUnknown ∧ State.reset.busy = false ∧ State.reset.upc = [] ∧ State.reset.status = 0x00 ∧
  State.reset.result = 0 ∧ State.reset.csShadow = .unknown ∧ State.reset.rstShadow = .unknown ∧ State.reset.trace = [] ∧
  State.reset.cfg.widths = { freqW := 10, timeoutW := 24 } ∧ State.reset.cfg.pollUnitTicks = 1 ∧
  State.reset.cfg.ldoArith = .exact

/-- Block reset at any time, also in the middle of a command (70_reset_and_hazards.md R210): it abandons the command, issues no
primitive and leaves the values R210 gives. That it arrives as a host operation, and that the record of events, the platform's
replies and the parameters stay, are the model's choices (log entry 13). -/
def Obligations.BlockResetAbandonsCommand : Prop :=
  ∀ (s : State) (rest : List HostOp), s.host = .blockReset :: rest →
    ∃ t, step s = .next t ∧ t.life = .poweredUnknown ∧ t.busy = false ∧ t.upc = [] ∧ t.latch = none ∧ t.status = 0x00 ∧
      t.result = 0 ∧ t.csShadow = .unknown ∧ t.rstShadow = .unknown ∧ t.trace = s.trace ∧ t.replies = s.replies ∧
      t.cfg = s.cfg ∧ t.host = rest

/-! ### Register access -/

/-- `RD_REG a` (40_register_access.md R100): one read frame, the byte in `RESULT`, no cache written. -/
def Obligations.RdRegDeliversByte : Prop :=
  ∀ (s : State) (a : RegAddr) (p : Byte × Byte) (rest : List Reply), s.Ready → s.replies = script [p] ++ rest →
    ∃ w, exec (.rdReg a) s = .next (s.done (p.2.setWidth 32) w (rdEv a p) rest)

/-- `WR_REG a, v` (40_register_access.md R101): one write frame, no cache updated whatever the address. -/
def Obligations.WrRegUpdatesNoCache : Prop :=
  ∀ (s : State) (a : RegAddr) (v : Byte) (p : Byte × Byte) (rest : List Reply), s.Ready → s.replies = script [p] ++ rest →
    ∃ w, exec (.wrReg a v) s = .next (s.done 0 w (wrEv a v p) rest)

/-! ### Initialisation -/

/-- `INIT f` when every primitive succeeds and the version byte matches (41_initialization.md R110): the pulse, the version read,
the configuration in its order, the final release of chip-select, and what it leaves in the block. -/
def Obligations.InitConfiguresChip : Prop :=
  ∀ (s : State) (f : BitVec 24) (p : Byte × Byte) (ps : List (Byte × Byte)) (rest : List Reply), s.Idle → f.toNat < 2 ^ s.cfg.widths.freqW →
    ps.length = fieldTxns (initTriples s.cfg.chip f) → p.2 = s.cfg.chip.versionExpected →
    s.replies = pulseScript ++ (txn p ++ (script ps ++ (.pin true :: rest))) →
    ∃ w, exec (.init f) s = .next
      { s.done 0 w
          (pulseEvents ++ (rdEv s.cfg.chip.reg.version p ++ (fieldEvents (initTriples s.cfg.chip f) ps ++ [.pin .cs .high true])))
          rest with
        life := .ready, hdr := .explicit, mode := .standby, freq := f, rstShadow := .high }

/-- A successful `INIT` performs 50 events (41_initialization.md R110) with any admissible chip map whose boost mask is not a whole byte. -/
def Obligations.InitPerformsFiftyEvents : Prop :=
  ∀ (s : State) (f : BitVec 24) (p : Byte × Byte) (ps : List (Byte × Byte)) (rest : List Reply), s.Idle → f.toNat < 2 ^ s.cfg.widths.freqW →
    s.cfg.chip.Admissible → s.cfg.chip.lnaBoostMask ≠ 0xFF#8 → p.2 = s.cfg.chip.versionExpected → ps.length = 14 →
    s.replies = pulseScript ++ (txn p ++ (script ps ++ (.pin true :: rest))) →
    ∃ t, exec (.init f) s = .next t ∧ t.life = .ready ∧ t.trace.length = s.trace.length + 50

/-- A version byte that differs ends `INIT` in Failed with the byte in `RESULT`; nothing is written to the chip and `MODE` and
`FREQ` keep their values (60_exceptions.md R185, 41_initialization.md R110, R112). -/
def Obligations.InitVersionMismatchFails : Prop :=
  ∀ (s : State) (f : BitVec 24) (p : Byte × Byte) (rest : List Reply), s.Idle → f.toNat < 2 ^ s.cfg.widths.freqW →
    p.2 ≠ s.cfg.chip.versionExpected →
    s.replies = pulseScript ++ (txn p ++ rest) →
    ∃ w, exec (.init f) s = .next
      { s.done 0 w (pulseEvents ++ rdEv s.cfg.chip.reg.version p) rest with
        status := 0x04, result := p.2.setWidth 32, life := .failed, hdr := .explicit, rstShadow := .high }

/-- However its replies come out (41_initialization.md R111, R112; 60_exceptions.md R192): an `INIT` that ends does so in Ready
with `STATUS` 0x00 and both caches set, or in Failed with an error code, `RESULT` the byte read for a version mismatch and 0
for the others; one that still runs shows `LIFE` as Resetting until the second delay, VersionCheck until the version byte
matched, and Configuring after it; `MODE` and `FREQ` are the old values, or Sleep with the old `FREQ` or `f`, or Standby with
`f`, and the old values before Configuring and after a reset-pin fault or a version mismatch; `HDR` is always cleared. -/
def Obligations.InitEndsReadyOrFailed : Prop :=
  ∀ (s t : State) (f : BitVec 24), s.Idle → f.toNat < 2 ^ s.cfg.widths.freqW → exec (.init f) s = .next t →
    t.hdr = .explicit ∧
    ((t.mode = s.mode ∧ t.freq = s.freq) ∨ (t.mode = .sleep ∧ (t.freq = s.freq ∨ t.freq = f)) ∨
      (t.mode = .standby ∧ t.freq = f)) ∧
    (t.busy = true →
      (∃ evs, t.trace = s.trace ++ evs ∧ t.life = initPhase evs.length) ∧
      (t.life ≠ .configuring → t.mode = s.mode ∧ t.freq = s.freq)) ∧
    (t.busy = false →
      (t.life = .ready ∧ t.status = 0x00 ∧ t.result = 0 ∧ t.mode = .standby ∧ t.freq = f) ∨
      (t.life = .failed ∧ t.status ∈ [0x01, 0x03] ∧ t.result = 0) ∨
      (t.life = .failed ∧ t.status = 0x02 ∧ t.result = 0 ∧ t.mode = s.mode ∧ t.freq = s.freq) ∨
      (t.life = .failed ∧ t.status = 0x04 ∧ t.mode = s.mode ∧ t.freq = s.freq ∧
        ∃ b : Byte, b ≠ s.cfg.chip.versionExpected ∧ t.result = b.setWidth 32))

/-- The boundaries at which `INIT` moves `LIFE` (41_initialization.md R111), each reached and not passed: Resetting from
acceptance on and still before the second delay returns; VersionCheck once it has; Configuring once the version byte matched;
Configuring still before the final release of chip-select. -/
def Obligations.InitMovesLifeAtItsBoundaries : Prop :=
  ∀ (s : State) (f : BitVec 24) (p : Byte × Byte) (ps : List (Byte × Byte)), s.Idle → f.toNat < 2 ^ s.cfg.widths.freqW →
    (s.replies = [] →
      ∃ t ops, exec (.init f) s = .next t ∧ t.busy = true ∧ t.life = .resetting ∧ t.trace = s.trace ∧
        t.upc = .pin .reset .low :: ops) ∧
    (s.replies = [.pin true, .delay, .pin true] →
      ∃ t ops, exec (.init f) s = .next t ∧ t.busy = true ∧ t.life = .resetting ∧ t.upc = .delay 10 :: ops ∧
        t.trace = s.trace ++ [.pin .reset .low true, .delay 10, .pin .reset .high true]) ∧
    (s.replies = pulseScript →
      ∃ t ops, exec (.init f) s = .next t ∧ t.busy = true ∧ t.life = .versionCheck ∧ t.trace = s.trace ++ pulseEvents ∧
        t.upc = .pin .cs .low :: .recv s.cfg.chip.reg.version :: ops) ∧
    (s.replies = pulseScript ++ txn p → p.2 = s.cfg.chip.versionExpected →
      ∃ t ops, exec (.init f) s = .next t ∧ t.busy = true ∧ t.life = .configuring ∧
        t.trace = s.trace ++ (pulseEvents ++ rdEv s.cfg.chip.reg.version p) ∧ t.upc = .pin .cs .low :: ops) ∧
    (s.replies = pulseScript ++ (txn p ++ script ps) → p.2 = s.cfg.chip.versionExpected →
      ps.length = fieldTxns (initTriples s.cfg.chip f) →
      ∃ t ops, exec (.init f) s = .next t ∧ t.busy = true ∧ t.life = .configuring ∧ t.mode = .standby ∧ t.freq = f ∧
        t.upc = .pin .cs .high :: ops)

/-! ### Setters -/

/-- `SET_MODE m` (42_mode_config.md R122, R121): the header field write, the mode byte, then the cache; operands 0 to 4 name the
five modes in the order of R122. -/
def Obligations.SetModeWritesHeaderThenMode : Prop :=
  ∀ (s : State) (m : BitVec 3) (md : Mode) (ps : List (Byte × Byte)) (rest : List Reply), s.Ready →
    (m, md) ∈ [(0, .sleep), (1, .standby), (2, .transmit), (3, .receiveContinuous), (4, .receiveSingle)] →
    ps.length = fieldTxns (modeTriples s.cfg.chip s.hdr md) → s.replies = script ps ++ rest →
    ∃ w, exec (.setMode m) s = .next
      { s.done 0 w (fieldEvents (modeTriples s.cfg.chip s.hdr md) ps) rest with mode := md }

/-- However its replies come out, `SET_MODE` changes `MODE` exactly when it ends with success (42_mode_config.md R121). -/
def Obligations.SetModeCommitsOnSuccessOnly : Prop :=
  ∀ (s t : State) (m : BitVec 3) (md : Mode), s.Ready →
    (m, md) ∈ [(0, .sleep), (1, .standby), (2, .transmit), (3, .receiveContinuous), (4, .receiveSingle)] →
    exec (.setMode m) s = .next t →
    (t.busy = false ∧ t.status = 0x00 → t.mode = md) ∧ (t.busy = true ∨ t.status ≠ 0x00 → t.mode = s.mode)

/-- `SET_HEADER h` (42_mode_config.md R123): the cached flag, no event. -/
def Obligations.SetHeaderWritesCacheOnly : Prop :=
  ∀ (s : State) (h : BitVec 1), s.Ready →
    exec (.setHeader h) s = .next { s with hdr := if h = 1 then .implicit else .explicit, status := 0x00, result := 0 }

/-- `SET_FREQUENCY f` (42_mode_config.md R124, R125): three writes, most significant byte of
`frf24 = f · 2^14 mod 2^24` first (30_encoding.md R78), then the cache. -/
def Obligations.SetFrequencyWritesThreeBytes : Prop :=
  ∀ (s : State) (f : BitVec 24) (p q r : Byte × Byte) (rest : List Reply), s.Ready → f.toNat < 2 ^ s.cfg.widths.freqW →
    s.replies = script [p, q, r] ++ rest →
    ∃ w, exec (.setFrequency f) s = .next
      { s.done 0 w
          (wrEv s.cfg.chip.reg.frfMsb ((BitVec.ofNat 24 (f.toNat * 2 ^ 14)).extractLsb' 16 8) p ++
            (wrEv (s.cfg.chip.reg.frfMsb + 1) ((BitVec.ofNat 24 (f.toNat * 2 ^ 14)).extractLsb' 8 8) q ++
              wrEv (s.cfg.chip.reg.frfMsb + 2) ((BitVec.ofNat 24 (f.toNat * 2 ^ 14)).extractLsb' 0 8) r)) rest with
        freq := f }

/-- However its replies come out, `SET_FREQUENCY` changes `FREQ` exactly when it ends with success (42_mode_config.md R124). -/
def Obligations.SetFrequencyCommitsOnSuccessOnly : Prop :=
  ∀ (s t : State) (f : BitVec 24), s.Ready → f.toNat < 2 ^ s.cfg.widths.freqW → exec (.setFrequency f) s = .next t →
    (t.busy = false ∧ t.status = 0x00 → t.freq = f) ∧ (t.busy = true ∨ t.status ≠ 0x00 → t.freq = s.freq)

/-- `SET_SF x` (42_mode_config.md R126, R130): detection constants, nibble, then the flag from the two values read back. -/
def Obligations.SetSfWritesNibbleAndFlag : Prop :=
  ∀ (s : State) (x : Byte) (d1 d2 r1 w1 pb psf : Byte × Byte) (ps : List (Byte × Byte)) (hz : Nat) (rest : List Reply),
    s.Ready → bwHz (pb.2.extractLsb' 4 4).toNat = some hz → ps.length = fieldTxns (ldoTriples s.cfg (psf.2.extractLsb' 4 4).toNat hz) →
    s.replies = script [d1, d2, r1, w1, pb, psf] ++ (script ps ++ rest) →
    ∃ w, exec (.setSf x) s = .next (s.done 0 w
      (wrEv s.cfg.chip.reg.detectOpt (if clamp x.toNat 6 12 = 6 then 0xC5 else 0xC3) d1 ++
        (wrEv s.cfg.chip.reg.detectThr (if clamp x.toNat 6 12 = 6 then 0x0C else 0x0A) d2 ++
          (rdEv s.cfg.chip.reg.mc2 r1 ++
            (wrEv s.cfg.chip.reg.mc2 ((r1.2 &&& 0x0F) ||| BitVec.ofNat 8 (clamp x.toNat 6 12 * 16)) w1 ++
              (rdEv s.cfg.chip.reg.mc1 pb ++
                (rdEv s.cfg.chip.reg.mc2 psf ++ fieldEvents (ldoTriples s.cfg (psf.2.extractLsb' 4 4).toNat hz) ps)))))) rest)

/-- `SET_BW hz` (42_mode_config.md R127, R130): the index nibble, then the flag from the two values read back. -/
def Obligations.SetBwWritesIndexAndFlag : Prop :=
  ∀ (s : State) (f : BitVec 24) (r1 w1 pb psf : Byte × Byte) (ps : List (Byte × Byte)) (hz : Nat) (rest : List Reply),
    s.Ready → bwHz (pb.2.extractLsb' 4 4).toNat = some hz → ps.length = fieldTxns (ldoTriples s.cfg (psf.2.extractLsb' 4 4).toNat hz) →
    s.replies = script [r1, w1, pb, psf] ++ (script ps ++ rest) →
    ∃ w, exec (.setBw f) s = .next (s.done 0 w
      (rdEv s.cfg.chip.reg.mc1 r1 ++
        (wrEv s.cfg.chip.reg.mc1 ((r1.2 &&& 0x0F) ||| BitVec.ofNat 8 (bwIndex f * 16)) w1 ++
          (rdEv s.cfg.chip.reg.mc1 pb ++
            (rdEv s.cfg.chip.reg.mc2 psf ++ fieldEvents (ldoTriples s.cfg (psf.2.extractLsb' 4 4).toNat hz) ps)))) rest)

/-- A bandwidth index 9..15 read back ends `SET_SF` and `SET_BW` with `BandwidthUnknown`, after their own writes and without
touching the flag (60_exceptions.md R190, 42_mode_config.md R126, R127). -/
def Obligations.SettersReportUnknownBandwidth : Prop :=
  ∀ (s : State) (x : Byte) (f : BitVec 24) (d1 d2 r1 w1 pb : Byte × Byte) (rest : List Reply), s.Ready → 8 < (pb.2.extractLsb' 4 4).toNat →
    (s.replies = script [d1, d2, r1, w1, pb] ++ rest →
      ∃ w, exec (.setSf x) s = .next (s.doneErr 0x82 ((pb.2.extractLsb' 4 4).setWidth 32) w
        (wrEv s.cfg.chip.reg.detectOpt (if clamp x.toNat 6 12 = 6 then 0xC5 else 0xC3) d1 ++
          (wrEv s.cfg.chip.reg.detectThr (if clamp x.toNat 6 12 = 6 then 0x0C else 0x0A) d2 ++
            (rdEv s.cfg.chip.reg.mc2 r1 ++
              (wrEv s.cfg.chip.reg.mc2 ((r1.2 &&& 0x0F) ||| BitVec.ofNat 8 (clamp x.toNat 6 12 * 16)) w1 ++
                rdEv s.cfg.chip.reg.mc1 pb)))) rest)) ∧
    (s.replies = script [r1, w1, pb] ++ rest →
      ∃ w, exec (.setBw f) s = .next (s.doneErr 0x82 ((pb.2.extractLsb' 4 4).setWidth 32) w
        (rdEv s.cfg.chip.reg.mc1 r1 ++
          (wrEv s.cfg.chip.reg.mc1 ((r1.2 &&& 0x0F) ||| BitVec.ofNat 8 (bwIndex f * 16)) w1 ++
            rdEv s.cfg.chip.reg.mc1 pb)) rest))

/-- The setters that are one field-write list and nothing else: `SET_CR`, `SET_PREAMBLE`, `SET_CRC`, `SET_INVERT_IQ`,
`SET_DIO0_TX_DONE` (42_mode_config.md R128, R134 to R137, R140). -/
def Obligations.FieldListSettersWriteTheirLists : Prop :=
  ∀ (s : State) (l : List FieldTriple) (ps : List (Byte × Byte)) (rest : List Reply) (i : Instr), s.Ready →
    ((∃ d, i = .setCr d ∧
        l = [{ addr := s.cfg.chip.reg.mc1, mask := s.cfg.chip.crMask
               val := (BitVec.ofNat 8 (clamp d.toNat 5 8 - 4) <<< s.cfg.chip.crShift) &&& s.cfg.chip.crMask }]) ∨
      (∃ len, i = .setPreamble len ∧ l = preambleList s.cfg.chip len) ∨
      (∃ e, i = .setCrc e ∧
        l = [{ addr := s.cfg.chip.reg.crcAddr, mask := s.cfg.chip.crcMask
               val := if e = 1 then s.cfg.chip.crcMask else 0x00 }]) ∨
      (∃ e, i = .setInvertIq e ∧ l = invertIqList s.cfg.chip e) ∨
      (i = .setDio0TxDone ∧ l = dio0List s.cfg.chip)) →
    ps.length = fieldTxns l → s.replies = script ps ++ rest →
    ∃ w, exec i s = .next (s.done 0 w (fieldEvents l ps) rest)

/-- `SET_TX_POWER p` and `SET_OCP ma` (42_mode_config.md R138, R132): one direct write each. -/
def Obligations.DirectSettersWriteOneByte : Prop :=
  ∀ (s : State) (b : Byte) (p : Byte × Byte) (rest : List Reply), s.Ready → s.replies = script [p] ++ rest →
    (∃ w, exec (.setTxPower b) s = .next (s.done 0 w (wrEv s.cfg.chip.reg.paConfig (paByte s.cfg.chip b) p) rest)) ∧
    (∃ w, exec (.setOcp b) s = .next (s.done 0 w
      (wrEv s.cfg.chip.reg.ocp
        (s.cfg.chip.ocpEnable ||| (BitVec.ofNat 8 (ocpTrim b.toNat) &&& s.cfg.chip.ocpTrimMask)) p) rest))

/-! ### Getters -/

/-- The getters of one read: `GET_SF`, `GET_RSSI`, `GET_SNR` (43_getters.md R150, R152, R153). -/
def Obligations.SingleReadGettersDeliver : Prop :=
  ∀ (s : State) (p : Byte × Byte) (rest : List Reply), s.Ready → s.replies = script [p] ++ rest →
    (∃ w, exec .getSf s = .next (s.done ((p.2.extractLsb' 4 4).setWidth 32) w (rdEv s.cfg.chip.reg.mc2 p) rest)) ∧
    (∃ w, exec .getRssi s = .next
      (s.done (BitVec.ofInt 32 ((p.2.toNat : Int) - 157)) w (rdEv s.cfg.chip.reg.pktRssi p) rest)) ∧
    (∃ w, exec .getSnr s = .next (s.done (p.2.setWidth 32) w (rdEv s.cfg.chip.reg.pktSnr p) rest))

/-- `GET_BW` (43_getters.md R151): the table value, or `BandwidthUnknown` with the index. -/
def Obligations.GetBwDeliversTableValue : Prop :=
  ∀ (s : State) (p : Byte × Byte) (rest : List Reply), s.Ready → s.replies = script [p] ++ rest →
    (∀ hz, bwHz (p.2.extractLsb' 4 4).toNat = some hz →
      ∃ w, exec .getBw s = .next (s.done (BitVec.ofNat 32 hz) w (rdEv s.cfg.chip.reg.mc1 p) rest)) ∧
    (8 < (p.2.extractLsb' 4 4).toNat →
      ∃ w, exec .getBw s = .next (s.doneErr 0x82 ((p.2.extractLsb' 4 4).setWidth 32) w (rdEv s.cfg.chip.reg.mc1 p) rest))

/-- `GET_FREQ_ERROR` (43_getters.md R154): four reads, one exact product and one division; `BandwidthUnknown` after all four. -/
def Obligations.GetFreqErrorScalesOnce : Prop :=
  ∀ (s : State) (pm pi pl pb : Byte × Byte) (rest : List Reply), s.Ready → s.replies = script [pm, pi, pl, pb] ++ rest →
    (∀ hz, bwHz (pb.2.extractLsb' 4 4).toNat = some hz →
      ∃ w, exec .getFreqError s = .next (s.done
        (BitVec.ofNat 32
          ((((pm.2 &&& s.cfg.chip.feMsbMask).toNat * 2 ^ 16 + pi.2.toNat * 2 ^ 8 + pl.2.toNat) * 2 ^ 24 * hz) /
            (32000000 * 500000))) w
        (rdEv s.cfg.chip.reg.freqErrorMsb pm ++ (rdEv s.cfg.chip.reg.freqErrorMid pi ++
          (rdEv s.cfg.chip.reg.freqErrorLsb pl ++ rdEv s.cfg.chip.reg.mc1 pb))) rest)) ∧
    (8 < (pb.2.extractLsb' 4 4).toNat →
      ∃ w, exec .getFreqError s = .next (s.doneErr 0x82 ((pb.2.extractLsb' 4 4).setWidth 32) w
        (rdEv s.cfg.chip.reg.freqErrorMsb pm ++ (rdEv s.cfg.chip.reg.freqErrorMid pi ++
          (rdEv s.cfg.chip.reg.freqErrorLsb pl ++ rdEv s.cfg.chip.reg.mc1 pb))) rest))

/-! ### Packets -/

/-- `TRANSMIT` (44_packet_io.md R161): Standby, header again, flags cleared, pointer and payload length zeroed, the length byte,
the `TXLEN` payload bytes in ascending order, then Transmit. -/
def Obligations.TransmitSendsPayload : Prop :=
  ∀ (s : State) (ps bs ts : List (Byte × Byte)) (pi qi pp pl pn : Byte × Byte) (rest : List Reply), s.Ready →
    ps.length = fieldTxns (modeTriples s.cfg.chip s.hdr .standby ++ headerTriples s.cfg.chip s.hdr) →
    bs.length = s.txlen.toNat → ts.length = fieldTxns (modeTriples s.cfg.chip s.hdr .transmit) →
    s.replies = script ps ++ (script [pi, qi, pp, pl, pn] ++ (script bs ++ (script ts ++ rest))) →
    ∃ w, exec .transmit s = .next
      { s.done 0 w
          (fieldEvents (modeTriples s.cfg.chip s.hdr .standby ++ headerTriples s.cfg.chip s.hdr) ps ++
            (rdEv s.cfg.chip.reg.irqFlags pi ++ (wrEv s.cfg.chip.reg.irqFlags pi.2 qi ++
              (wrEv s.cfg.chip.reg.fifoAddrPtr 0x00 pp ++ (wrEv s.cfg.chip.reg.payloadLength 0x00 pl ++
                (wrEv s.cfg.chip.reg.fifo s.txlen pn ++ (payloadEvents s 0 bs ++
                  fieldEvents (modeTriples s.cfg.chip s.hdr .transmit) ts))))))) rest with
        mode := .transmit }

/-- However their replies come out: `TRANSMIT` leaves `MODE` at Transmit only when it ends with success, and on the way, or after
an error, `MODE` is what it was or Standby; `POLL_IRQ` and `POLL_IRQ_T` leave it at what it was or at ReceiveContinuous, a pin or
transport fault among them, and at ReceiveContinuous when they end with success or `ReceiveTimeout`, which `POLL_IRQ` never does
(44_packet_io.md R161, R163, R164, 42_mode_config.md R121, 60_exceptions.md R192). -/
def Obligations.TransmitAndPollsCommitMode : Prop :=
  ∀ s t : State, s.Ready →
    (exec .transmit s = .next t →
      (t.busy = false ∧ t.status = 0x00 → t.mode = .transmit) ∧
      (t.busy = true ∨ t.status ≠ 0x00 → t.mode = s.mode ∨ t.mode = .standby)) ∧
    (∀ i : Instr, (i = .pollIrq ∨ ∃ n, i = .pollIrqT n) → exec i s = .next t →
      (t.mode = s.mode ∨ t.mode = .receiveContinuous) ∧
      (t.busy = false → t.status ∈ [0x00, 0x05] → t.mode = .receiveContinuous) ∧
      (t.busy = false → i = .pollIrq → t.status ∈ [0x00, 0x01, 0x03]))

/-- `POLL_IRQ` (44_packet_io.md R163): continuous receive, status reads with `Delay(100)` after each that finds bit 6 clear, one
that finds it set, the flags cleared, the byte count delivered. -/
def Obligations.PollIrqDeliversCount : Prop :=
  ∀ (s : State) (ps cs : List (Byte × Byte)) (h pi qi pn : Byte × Byte) (rest : List Reply), s.Ready →
    ps.length = fieldTxns (modeTriples s.cfg.chip s.hdr .receiveContinuous) →
    (∀ c ∈ cs, c.2.getLsbD 6 = false) → h.2.getLsbD 6 = true →
    s.replies = script ps ++ (pollScript cs ++ (script [h, pi, qi, pn] ++ rest)) →
    ∃ w, exec .pollIrq s = .next
      { s.done (pn.2.setWidth 32) w
          (fieldEvents (modeTriples s.cfg.chip s.hdr .receiveContinuous) ps ++
            (pollEvents s.cfg.chip.reg.irqFlags 100 cs ++ (rdEv s.cfg.chip.reg.irqFlags h ++
              (rdEv s.cfg.chip.reg.irqFlags pi ++ (wrEv s.cfg.chip.reg.irqFlags pi.2 qi ++
                rdEv s.cfg.chip.reg.rxNbBytes pn))))) rest with
        mode := .receiveContinuous }

/-- `POLL_IRQ` may run for ever (70_reset_and_hazards.md R219): after any number of status reads that find bit 6 clear it is
still running, in continuous receive, about to read the status again, with `STATUS` and `RESULT` not yet written. -/
def Obligations.PollIrqNeverGivesUp : Prop :=
  ∀ (s : State) (ps cs : List (Byte × Byte)), s.Ready →
    ps.length = fieldTxns (modeTriples s.cfg.chip s.hdr .receiveContinuous) → (∀ c ∈ cs, c.2.getLsbD 6 = false) →
    s.replies = script ps ++ pollScript cs →
    ∃ (t : State) (ops : List MicroOp), exec .pollIrq s = .next t ∧ t.busy = true ∧ t.mode = .receiveContinuous ∧
      t.upc = .pin .cs .low :: .recv s.cfg.chip.reg.irqFlags :: ops ∧ t.status = s.status ∧ t.result = s.result ∧
      t.replies = [] ∧
      t.trace = s.trace ++ (fieldEvents (modeTriples s.cfg.chip s.hdr .receiveContinuous) ps ++
        pollEvents s.cfg.chip.reg.irqFlags 100 cs)

/-- `POLL_IRQ_T n` when a status read among the first `B + 1` finds bit 6 set (44_packet_io.md R164); the bit wins over an
expired count (60_exceptions.md R191). -/
def Obligations.PollIrqTDeliversCount : Prop :=
  ∀ (s : State) (n : BitVec 24) (ps cs : List (Byte × Byte)) (h pi qi pn : Byte × Byte) (rest : List Reply), s.Ready →
    n.toNat < 2 ^ s.cfg.widths.timeoutW →
    ps.length = fieldTxns (modeTriples s.cfg.chip s.hdr .receiveContinuous) →
    cs.length ≤ n.toNat * s.cfg.pollUnitTicks → (∀ c ∈ cs, c.2.getLsbD 6 = false) → h.2.getLsbD 6 = true →
    s.replies = script ps ++ (pollScript cs ++ (script [h, pi, qi, pn] ++ rest)) →
    ∃ w, exec (.pollIrqT n) s = .next
      { s.done (pn.2.setWidth 32) w
          (fieldEvents (modeTriples s.cfg.chip s.hdr .receiveContinuous) ps ++
            (pollEvents s.cfg.chip.reg.irqFlags 1 cs ++ (rdEv s.cfg.chip.reg.irqFlags h ++
              (rdEv s.cfg.chip.reg.irqFlags pi ++ (wrEv s.cfg.chip.reg.irqFlags pi.2 qi ++
                rdEv s.cfg.chip.reg.rxNbBytes pn))))) rest with
        mode := .receiveContinuous }

/-- `POLL_IRQ_T n` when `B + 1` status reads find bit 6 clear: `ReceiveTimeout` after `B` delays, the mode left at continuous
receive, the flags not cleared, the count not read (60_exceptions.md R186, 44_packet_io.md R164). -/
def Obligations.PollIrqTTimesOut : Prop :=
  ∀ (s : State) (n : BitVec 24) (ps cs : List (Byte × Byte)) (h : Byte × Byte) (rest : List Reply), s.Ready →
    n.toNat < 2 ^ s.cfg.widths.timeoutW →
    ps.length = fieldTxns (modeTriples s.cfg.chip s.hdr .receiveContinuous) →
    cs.length = n.toNat * s.cfg.pollUnitTicks → (∀ c ∈ cs, c.2.getLsbD 6 = false) → h.2.getLsbD 6 = false →
    s.replies = script ps ++ (pollScript cs ++ (txn h ++ rest)) →
    ∃ w, exec (.pollIrqT n) s = .next
      { s.doneErr 0x05 0 w
          (fieldEvents (modeTriples s.cfg.chip s.hdr .receiveContinuous) ps ++
            (pollEvents s.cfg.chip.reg.irqFlags 1 cs ++ rdEv s.cfg.chip.reg.irqFlags h)) rest with
        mode := .receiveContinuous }

/-- `READ_PACKET` (44_packet_io.md R165): flags cleared, count and address read, the pointer set, `N` bytes read in order into
`RXBUF[0..N−1]`, the pointer zeroed, `RXLEN` and `RESULT` the count; `MODE` neither read nor written. -/
def Obligations.ReadPacketFillsBuffer : Prop :=
  ∀ (s : State) (bs : List (Byte × Byte)) (pi qi pn pc pw pz : Byte × Byte) (rest : List Reply), s.Ready →
    bs.length = pn.2.toNat →
    s.replies = script [pi, qi, pn, pc, pw] ++ (script bs ++ (txn pz ++ rest)) →
    ∃ w, exec .readPacket s = .next
      { s.done (pn.2.setWidth 32) w
          (rdEv s.cfg.chip.reg.irqFlags pi ++ (wrEv s.cfg.chip.reg.irqFlags pi.2 qi ++ (rdEv s.cfg.chip.reg.rxNbBytes pn ++
            (rdEv s.cfg.chip.reg.fifoRxCurrent pc ++ (wrEv s.cfg.chip.reg.fifoAddrPtr pc.2 pw ++
              (readEvents s.cfg.chip.reg.fifo bs ++ wrEv s.cfg.chip.reg.fifoAddrPtr 0x00 pz)))))) rest with
        rxbuf := writeFrom s.rxbuf 0 bs, rxlen := pn.2 }

/-- However its replies come out, `READ_PACKET` changes `RXLEN` only when it ends with success, and then `RESULT` is the new
`RXLEN` (44_packet_io.md R165). -/
def Obligations.ReadPacketCommitsLengthLast : Prop :=
  ∀ s t : State, s.Ready → exec .readPacket s = .next t →
    (t.busy = false ∧ t.status = 0x00 → t.result = t.rxlen.setWidth 32) ∧
    (t.busy = true ∨ t.status ≠ 0x00 → t.rxlen = s.rxlen)

/-- `IRQ_FLAGS`, `CLEAR_IRQ` and `IS_PACKET_READY` (44_packet_io.md R166, R167, R168). -/
def Obligations.FlagCommandsReadAndClear : Prop :=
  ∀ (s : State) (p q : Byte × Byte) (rest : List Reply), s.Ready →
    (s.replies = script [p] ++ rest →
      (∃ w, exec .irqFlags s = .next (s.done (p.2.setWidth 32) w (rdEv s.cfg.chip.reg.irqFlags p) rest)) ∧
      (∃ w, exec .isPacketReady s = .next
        (s.done ((p.2.extractLsb' 6 1).setWidth 32) w (rdEv s.cfg.chip.reg.irqFlags p) rest))) ∧
    (s.replies = script [p, q] ++ rest →
      ∃ w, exec .clearIrq s = .next
        (s.done 0 w (rdEv s.cfg.chip.reg.irqFlags p ++ wrEv s.cfg.chip.reg.irqFlags p.2 q) rest))

/-! ### Rules of the whole machine -/

/-- Whatever the replies, only `INIT` moves `LIFE` or drives the reset pin (10_state.md R12, 70_reset_and_hazards.md R211). -/
def Obligations.OnlyInitMovesLife : Prop :=
  ∀ (i : Instr) (s t : State), isCommand i = true → isInit (some i) = false → exec i s = .next t →
    t.life = s.life ∧ t.rstShadow = s.rstShadow

/-- Whatever the replies, each cached or returned register is changed by no command but those 10_state.md R11 lists as its
writers: `MODE`, `HDR`, `FREQ`, and `RXBUF` with `RXLEN`. -/
def Obligations.CachesHaveOnlyTheirWriters : Prop :=
  ∀ (i : Instr) (s t : State), isCommand i = true → exec i s = .next t →
    (isInit (some i) = false → (∀ m, i ≠ .setMode m) → i ≠ .transmit → i ≠ .pollIrq → (∀ n, i ≠ .pollIrqT n) →
      t.mode = s.mode) ∧
    (isInit (some i) = false → (∀ h, i ≠ .setHeader h) → t.hdr = s.hdr) ∧
    (isInit (some i) = false → (∀ f, i ≠ .setFrequency f) → t.freq = s.freq) ∧
    (i ≠ .readPacket → t.rxbuf = s.rxbuf ∧ t.rxlen = s.rxlen)

/-- No command and no frame touches the host's side or the parameters: `TXBUF` and `TXLEN` ("Only the host writes them",
10_state.md R19), what the host does next, what its port last returned, the configuration; and the trace only grows.
The model's own counters of resets and of free replies stay too (log entries 5, 6). -/
def Obligations.CommandsLeaveHostSideAlone : Prop :=
  ∀ (i : Instr) (s t : State), exec i s = .next t →
    t.txbuf = s.txbuf ∧ t.txlen = s.txlen ∧ t.host = s.host ∧ t.hostData = s.hostData ∧ t.cfg = s.cfg ∧ t.resets = s.resets ∧
    t.drawn = s.drawn ∧ (∃ evs, t.trace = s.trace ++ evs) ∧ (∃ used, s.replies = used ++ t.replies)

/-- `STATUS`, `RESULT`, `MODE`, `FREQ` and `RXLEN` are read by no instruction (10_state.md R14, R16, R17, 70_reset_and_hazards.md
R217): two states that differ in them alone give runs that differ in them alone. Where the block is idle again both runs have
the same `STATUS` and `RESULT`; where it is not, each has its own of before; and each of `MODE`, `FREQ` and `RXLEN` is either
the same in both or each run's own of before. -/
def Obligations.HiddenRegistersAreNeverRead : Prop :=
  ∀ (i : Instr) (s t : State) (st : Byte) (r : Word) (m : Mode) (f : BitVec 24) (n : Byte), exec i s = .next t →
    ∃ t', exec i { s with status := st, result := r, mode := m, freq := f, rxlen := n } = .next t' ∧
      { t' with status := t.status, result := t.result, mode := t.mode, freq := t.freq, rxlen := t.rxlen } = t ∧
      (t.busy = false → t'.status = t.status ∧ t'.result = t.result) ∧
      (t.busy = true → t.status = s.status ∧ t'.status = st ∧ t.result = s.result ∧ t'.result = r) ∧
      (t'.mode = t.mode ∨ (t.mode = s.mode ∧ t'.mode = m)) ∧
      (t'.freq = t.freq ∨ (t.freq = s.freq ∧ t'.freq = f)) ∧
      (t'.rxlen = t.rxlen ∨ (t.rxlen = s.rxlen ∧ t'.rxlen = n))

/-- The host port of an idle block (10_state.md R34): writes of `TXBUF` and `TXLEN`; a read of each of the nine registers, with
the value it returns written out (10_state.md R12 to R20); a read of a written byte of either buffer. `LIFE` and `BUSY` read at
a busy block as well, where nothing else changes. The passing of a primitive changes nothing at an idle block (the model's
choice, log entry 20). Byte 255 does not exist, and that naming it faults is DEDUCED (log entry 9);
the register that holds what the port returned is the model's choice (log entry 18). -/
def Obligations.HostPortReadsAndWrites : Prop :=
  ∀ (s : State) (rest : List HostOp),
    (∀ i b : Byte, s.busy = false → s.host = .writeTx i b :: rest → i.toNat < 255 →
      ∃ t, step s = .next t ∧ t = { s with host := rest, txbuf := t.txbuf } ∧
        Buffer.read t.txbuf i.toNat = some b ∧ ∀ j, j ≠ i.toNat → Buffer.read t.txbuf j = Buffer.read s.txbuf j) ∧
    (∀ i b : Byte, s.busy = false → s.host = .writeTx i b :: rest → i.toNat = 255 → step s = .fault .noSuchBufferByte) ∧
    (∀ b : Byte, s.busy = false → s.host = .writeTxLen b :: rest → step s = .next { s with host := rest, txlen := b }) ∧
    (s.busy = false → s.host = .wait :: rest → step s = .next { s with host := rest }) ∧
    (∀ (l : Life) (v : Word), s.host = .readReg .life :: rest → s.life = l →
      (l, v) ∈ [(.poweredUnknown, 0), (.resetting, 1), (.versionCheck, 2), (.configuring, 3), (.ready, 4), (.failed, 5)] →
      step s = .next { s with host := rest, hostData := v }) ∧
    (s.host = .readReg .busy :: rest → step s = .next { s with host := rest, hostData := if s.busy then 1 else 0 }) ∧
    (s.busy = false → s.host = .readReg .status :: rest →
      step s = .next { s with host := rest, hostData := s.status.setWidth 32 }) ∧
    (s.busy = false → s.host = .readReg .result :: rest → step s = .next { s with host := rest, hostData := s.result }) ∧
    (∀ (m : Mode) (v : Word), s.busy = false → s.host = .readReg .mode :: rest → s.mode = m →
      (m, v) ∈ [(.sleep, 0), (.standby, 1), (.transmit, 2), (.receiveContinuous, 3), (.receiveSingle, 4)] →
      step s = .next { s with host := rest, hostData := v }) ∧
    (∀ (h : HeaderMode) (v : Word), s.busy = false → s.host = .readReg .hdr :: rest → s.hdr = h →
      (h, v) ∈ [(.explicit, 0), (.implicit, 1)] → step s = .next { s with host := rest, hostData := v }) ∧
    (s.busy = false → s.host = .readReg .freq :: rest →
      step s = .next { s with host := rest, hostData := s.freq.setWidth 32 }) ∧
    (s.busy = false → s.host = .readReg .txlen :: rest →
      step s = .next { s with host := rest, hostData := s.txlen.setWidth 32 }) ∧
    (s.busy = false → s.host = .readReg .rxlen :: rest →
      step s = .next { s with host := rest, hostData := s.rxlen.setWidth 32 }) ∧
    (∀ (i b : Byte), s.busy = false → s.host = .readBuf .rx i :: rest → Buffer.read s.rxbuf i.toNat = some b →
      i.toNat < 255 → step s = .next { s with host := rest, hostData := b.setWidth 32 }) ∧
    (∀ (i b : Byte), s.busy = false → s.host = .readBuf .tx i :: rest → Buffer.read s.txbuf i.toNat = some b →
      i.toNat < 255 → step s = .next { s with host := rest, hostData := b.setWidth 32 }) ∧
    (∀ (which : HostBuf) (i : Byte), s.busy = false → s.host = .readBuf which i :: rest → i.toNat = 255 →
      step s = .fault .noSuchBufferByte)

/-! ### Arithmetic -/

/-- The frequency word (30_encoding.md R78): the three bytes rebuild `f · 2^19 div 32` modulo 2^24 for every operand, and all of
it for every 10-bit one; the division is the product by 2^14, so the low 14 bits of the word are 0, the low byte is 0 and the
middle byte a multiple of 0x40. -/
def Obligations.FrequencyBytesRebuildWord : Prop :=
  ∀ f : BitVec 24,
    (frfMsb f).toNat * 2 ^ 16 + (frfMid f).toNat * 2 ^ 8 + (frfLsb f).toNat = f.toNat * 2 ^ 19 / 32 % 2 ^ 24 ∧
    (f.toNat ≤ 1023 →
      (frfMsb f).toNat * 2 ^ 16 + (frfMid f).toNat * 2 ^ 8 + (frfLsb f).toNat = f.toNat * 2 ^ 19 / 32) ∧
    f.toNat * 2 ^ 19 / 32 = f.toNat * 2 ^ 14 ∧ (f.toNat * 2 ^ 19 / 32) % 2 ^ 14 = 0 ∧ frfLsb f = 0 ∧
    (frfMid f).toNat % 0x40 = 0

/-- The over-current trim (42_mode_config.md R133): its four pieces, its range and that it never decreases. -/
def Obligations.OcpTrimIsPiecewise : Prop :=
  (∀ ma, ma < 45 → ocpTrim ma = 0) ∧
  (∀ ma, 45 ≤ ma → ma ≤ 120 → ocpTrim ma = (ma - 45) / 5 ∧ ocpTrim ma ≤ 15) ∧
  (∀ ma, 120 < ma → ma ≤ 240 → ocpTrim ma = (ma + 30) / 10 ∧ 15 ≤ ocpTrim ma ∧ ocpTrim ma ≤ 27) ∧
  (∀ ma, 240 < ma → ocpTrim ma = 27) ∧
  (∀ a b, a ≤ b → ocpTrim a ≤ ocpTrim b)

/-- The bandwidth index (30_encoding.md R81): the nine values of the table to 0 up to 8 in its order, 9 for every other operand,
and no bandwidth for an index above 8. -/
def Obligations.BandwidthIndexIsExact : Prop :=
  (∀ (hz : BitVec 24) (i : Nat),
    (hz.toNat, i) ∈ [(7800, 0), (10400, 1), (15600, 2), (20800, 3), (31250, 4), (41700, 5), (62500, 6), (125000, 7), (250000, 8)] →
      bwIndex hz = i ∧ bwHz i = some hz.toNat) ∧
  (∀ hz : BitVec 24, bwIndex hz ≤ 9) ∧
  (∀ hz : BitVec 24, bwIndex hz = 9 ↔ hz.toNat ∉ [7800, 10400, 15600, 20800, 31250, 41700, 62500, 125000, 250000]) ∧
  (∀ hz : BitVec 24, bwIndex hz ≤ 8 → bwHz (bwIndex hz) = some hz.toNat) ∧
  (∀ i, 8 < i → bwHz i = none)

/-- The low-data-rate flag (42_mode_config.md R130, R131): `exact` is set exactly when `1000 · 2^sf > 16 · hz`, and on the table's
bandwidths and every spreading factor a nibble holds `truncating` differs in exactly six cells. -/
def Obligations.LowDataRateFlagCells : Prop :=
  (∀ sf hz, ldoFlag .exact sf hz = true ↔ 16 * hz < 1000 * 2 ^ sf) ∧
  (∀ sf hz, sf ≤ 15 → hz ∈ bwTable →
    (ldoFlag .exact sf hz ≠ ldoFlag .truncating sf hz ↔
      (sf, hz) ∈ [(7, 7800), (8, 15600), (9, 31250), (10, 62500), (11, 125000), (12, 250000)]))

/-- The mode byte (30_encoding.md R79): the long-range bit with the target's mode bits and no other bit, for each of the five
modes; and for an admissible chip map (00_scope.md R6) masked to mode bits it is the target's mode bits, and the long-range bit
is set whatever the target mode (10_state.md R26). -/
def Obligations.ModeByteKeepsLongRangeBit : Prop :=
  ∀ c : ChipMap,
    modeByte c .sleep = c.lrBit ||| c.modeBits.sleep ∧
    modeByte c .standby = c.lrBit ||| c.modeBits.standby ∧
    modeByte c .transmit = c.lrBit ||| c.modeBits.transmit ∧
    modeByte c .receiveContinuous = c.lrBit ||| c.modeBits.receiveContinuous ∧
    modeByte c .receiveSingle = c.lrBit ||| c.modeBits.receiveSingle ∧
    (c.Admissible → ∀ m : Mode,
      modeByte c m &&& c.modeMask = modeBitsOf c m ∧ modeByte c m &&& c.lrBit ≠ 0 ∧
      modeByte c m &&& ~~~(c.lrBit ||| c.modeMask) = 0)

/-- What the setters with an open function or list send (42_mode_config.md R135, R137, R138, R140; 00_scope.md R6): the default
of each, written out, and any other function or list as the parameter gives it; and the clamp (00_scope.md R8). -/
def Obligations.OpenSettersSendTheirParameters : Prop :=
  (∀ x lo hi : Nat, lo ≤ hi → clamp x lo hi = max lo (min x hi)) ∧
  (∀ (c : ChipMap) (p : Byte),
    (c.paMap = .boost → paByte c p = 0x80 ||| BitVec.ofNat 8 (max 2 (min p.toNat 17) - 2)) ∧
    (∀ (l : List Byte) (b : Byte), c.paMap = .table l → l[p.toNat]? = some b → paByte c p = b)) ∧
  (∀ (c : ChipMap) (len : BitVec 16),
    (c.preambleSeq = .registerPair →
      preambleList c len =
        [{ addr := c.reg.preambleMsb, mask := 0xFF, val := BitVec.ofNat 8 (len.toNat / 256) },
         { addr := c.reg.preambleLsb, mask := 0xFF, val := BitVec.ofNat 8 (len.toNat % 256) }]) ∧
    (∀ (rows : List (List FieldTriple)) (l : List FieldTriple), c.preambleSeq = .table rows → rows[len.toNat]? = some l →
      preambleList c len = l)) ∧
  (∀ c : ChipMap,
    (c.invertIqSeq = .bitSix →
      invertIqList c 0 = [{ addr := c.reg.invertIq, mask := 0x40, val := 0x00 }] ∧
      invertIqList c 1 = [{ addr := c.reg.invertIq, mask := 0x40, val := 0x40 }]) ∧
    (∀ off on : List FieldTriple, c.invertIqSeq = .lists off on → invertIqList c 0 = off ∧ invertIqList c 1 = on)) ∧
  (∀ c : ChipMap,
    (c.dio0TxDoneSeq = .mappingByte → dio0List c = [{ addr := c.reg.dioMapping1, mask := 0xFF, val := 0x40 }]) ∧
    (∀ l : List FieldTriple, c.dio0TxDoneSeq = .list l → dio0List c = l))
end

