-- ==== Sys2Proof/Laws/State.lean ====
section
/-! SUPPORT. The fields of State after each named update: one lemma per field per update, so that no later proof unfolds a record
update. -/

namespace Sys2Proof.Machine

/-! ### `State.log` -/

@[simp] theorem log_cfg (s : State) (e : Event) : (s.log e).cfg = s.cfg := rfl
@[simp] theorem log_life (s : State) (e : Event) : (s.log e).life = s.life := rfl
@[simp] theorem log_busy (s : State) (e : Event) : (s.log e).busy = s.busy := rfl
@[simp] theorem log_upc (s : State) (e : Event) : (s.log e).upc = s.upc := rfl
@[simp] theorem log_latch (s : State) (e : Event) : (s.log e).latch = s.latch := rfl
@[simp] theorem log_mode (s : State) (e : Event) : (s.log e).mode = s.mode := rfl
@[simp] theorem log_hdr (s : State) (e : Event) : (s.log e).hdr = s.hdr := rfl
@[simp] theorem log_freq (s : State) (e : Event) : (s.log e).freq = s.freq := rfl
@[simp] theorem log_status (s : State) (e : Event) : (s.log e).status = s.status := rfl
@[simp] theorem log_result (s : State) (e : Event) : (s.log e).result = s.result := rfl
@[simp] theorem log_txbuf (s : State) (e : Event) : (s.log e).txbuf = s.txbuf := rfl
@[simp] theorem log_txlen (s : State) (e : Event) : (s.log e).txlen = s.txlen := rfl
@[simp] theorem log_rxbuf (s : State) (e : Event) : (s.log e).rxbuf = s.rxbuf := rfl
@[simp] theorem log_rxlen (s : State) (e : Event) : (s.log e).rxlen = s.rxlen := rfl
@[simp] theorem log_work (s : State) (e : Event) : (s.log e).work = s.work := rfl
@[simp] theorem log_csShadow (s : State) (e : Event) : (s.log e).csShadow = s.csShadow := rfl
@[simp] theorem log_rstShadow (s : State) (e : Event) : (s.log e).rstShadow = s.rstShadow := rfl
@[simp] theorem log_trace (s : State) (e : Event) : (s.log e).trace = s.trace ++ [e] := rfl
@[simp] theorem log_replies (s : State) (e : Event) : (s.log e).replies = s.replies := rfl
@[simp] theorem log_drawn (s : State) (e : Event) : (s.log e).drawn = s.drawn := rfl
@[simp] theorem log_host (s : State) (e : Event) : (s.log e).host = s.host := rfl
@[simp] theorem log_hostData (s : State) (e : Event) : (s.log e).hostData = s.hostData := rfl
@[simp] theorem log_resets (s : State) (e : Event) : (s.log e).resets = s.resets := rfl

/-! ### `State.complete` -/

@[simp] theorem complete_cfg (s : State) (r : Word) : (s.complete r).cfg = s.cfg := rfl
@[simp] theorem complete_life (s : State) (r : Word) : (s.complete r).life = s.life := rfl
@[simp] theorem complete_busy (s : State) (r : Word) : (s.complete r).busy = false := rfl
@[simp] theorem complete_upc (s : State) (r : Word) : (s.complete r).upc = [] := rfl
@[simp] theorem complete_latch (s : State) (r : Word) : (s.complete r).latch = none := rfl
@[simp] theorem complete_mode (s : State) (r : Word) : (s.complete r).mode = s.mode := rfl
@[simp] theorem complete_hdr (s : State) (r : Word) : (s.complete r).hdr = s.hdr := rfl
@[simp] theorem complete_freq (s : State) (r : Word) : (s.complete r).freq = s.freq := rfl
@[simp] theorem complete_status (s : State) (r : Word) : (s.complete r).status = 0x00 := rfl
@[simp] theorem complete_result (s : State) (r : Word) : (s.complete r).result = r := rfl
@[simp] theorem complete_txbuf (s : State) (r : Word) : (s.complete r).txbuf = s.txbuf := rfl
@[simp] theorem complete_txlen (s : State) (r : Word) : (s.complete r).txlen = s.txlen := rfl
@[simp] theorem complete_rxbuf (s : State) (r : Word) : (s.complete r).rxbuf = s.rxbuf := rfl
@[simp] theorem complete_rxlen (s : State) (r : Word) : (s.complete r).rxlen = s.rxlen := rfl
@[simp] theorem complete_work (s : State) (r : Word) : (s.complete r).work = s.work := rfl
@[simp] theorem complete_csShadow (s : State) (r : Word) : (s.complete r).csShadow = s.csShadow := rfl
@[simp] theorem complete_rstShadow (s : State) (r : Word) : (s.complete r).rstShadow = s.rstShadow := rfl
@[simp] theorem complete_trace (s : State) (r : Word) : (s.complete r).trace = s.trace := rfl
@[simp] theorem complete_replies (s : State) (r : Word) : (s.complete r).replies = s.replies := rfl
@[simp] theorem complete_drawn (s : State) (r : Word) : (s.complete r).drawn = s.drawn := rfl
@[simp] theorem complete_host (s : State) (r : Word) : (s.complete r).host = s.host := rfl
@[simp] theorem complete_hostData (s : State) (r : Word) : (s.complete r).hostData = s.hostData := rfl
@[simp] theorem complete_resets (s : State) (r : Word) : (s.complete r).resets = s.resets := rfl

/-! ### `State.abort` (60_exceptions.md R184) -/

@[simp] theorem abort_cfg (s : State) (e : Err) : (s.abort e).cfg = s.cfg := rfl
@[simp] theorem abort_life (s : State) (e : Err) : (s.abort e).life = lifeAfter s.latch s.life := rfl
@[simp] theorem abort_busy (s : State) (e : Err) : (s.abort e).busy = false := rfl
@[simp] theorem abort_upc (s : State) (e : Err) : (s.abort e).upc = [] := rfl
@[simp] theorem abort_latch (s : State) (e : Err) : (s.abort e).latch = none := rfl
@[simp] theorem abort_mode (s : State) (e : Err) : (s.abort e).mode = s.mode := rfl
@[simp] theorem abort_hdr (s : State) (e : Err) : (s.abort e).hdr = s.hdr := rfl
@[simp] theorem abort_freq (s : State) (e : Err) : (s.abort e).freq = s.freq := rfl
@[simp] theorem abort_status (s : State) (e : Err) : (s.abort e).status = e.code := rfl
@[simp] theorem abort_result (s : State) (e : Err) : (s.abort e).result = e.info := rfl
@[simp] theorem abort_txbuf (s : State) (e : Err) : (s.abort e).txbuf = s.txbuf := rfl
@[simp] theorem abort_txlen (s : State) (e : Err) : (s.abort e).txlen = s.txlen := rfl
@[simp] theorem abort_rxbuf (s : State) (e : Err) : (s.abort e).rxbuf = s.rxbuf := rfl
@[simp] theorem abort_rxlen (s : State) (e : Err) : (s.abort e).rxlen = s.rxlen := rfl
@[simp] theorem abort_work (s : State) (e : Err) : (s.abort e).work = s.work := rfl
@[simp] theorem abort_csShadow (s : State) (e : Err) : (s.abort e).csShadow = csAfter e s.csShadow := rfl
@[simp] theorem abort_rstShadow (s : State) (e : Err) : (s.abort e).rstShadow = rstAfter e s.rstShadow := rfl
@[simp] theorem abort_trace (s : State) (e : Err) : (s.abort e).trace = s.trace := rfl
@[simp] theorem abort_replies (s : State) (e : Err) : (s.abort e).replies = s.replies := rfl
@[simp] theorem abort_drawn (s : State) (e : Err) : (s.abort e).drawn = s.drawn := rfl
@[simp] theorem abort_host (s : State) (e : Err) : (s.abort e).host = s.host := rfl
@[simp] theorem abort_hostData (s : State) (e : Err) : (s.abort e).hostData = s.hostData := rfl
@[simp] theorem abort_resets (s : State) (e : Err) : (s.abort e).resets = s.resets := rfl

/-! ### `State.reject` (30_encoding.md R75) -/

@[simp] theorem reject_cfg (s : State) (e : Err) : (s.reject e).cfg = s.cfg := rfl
@[simp] theorem reject_life (s : State) (e : Err) : (s.reject e).life = s.life := rfl
@[simp] theorem reject_busy (s : State) (e : Err) : (s.reject e).busy = s.busy := rfl
@[simp] theorem reject_upc (s : State) (e : Err) : (s.reject e).upc = s.upc := rfl
@[simp] theorem reject_latch (s : State) (e : Err) : (s.reject e).latch = s.latch := rfl
@[simp] theorem reject_mode (s : State) (e : Err) : (s.reject e).mode = s.mode := rfl
@[simp] theorem reject_hdr (s : State) (e : Err) : (s.reject e).hdr = s.hdr := rfl
@[simp] theorem reject_freq (s : State) (e : Err) : (s.reject e).freq = s.freq := rfl
@[simp] theorem reject_status (s : State) (e : Err) : (s.reject e).status = e.code := rfl
@[simp] theorem reject_result (s : State) (e : Err) : (s.reject e).result = e.info := rfl
@[simp] theorem reject_txbuf (s : State) (e : Err) : (s.reject e).txbuf = s.txbuf := rfl
@[simp] theorem reject_txlen (s : State) (e : Err) : (s.reject e).txlen = s.txlen := rfl
@[simp] theorem reject_rxbuf (s : State) (e : Err) : (s.reject e).rxbuf = s.rxbuf := rfl
@[simp] theorem reject_rxlen (s : State) (e : Err) : (s.reject e).rxlen = s.rxlen := rfl
@[simp] theorem reject_work (s : State) (e : Err) : (s.reject e).work = s.work := rfl
@[simp] theorem reject_csShadow (s : State) (e : Err) : (s.reject e).csShadow = s.csShadow := rfl
@[simp] theorem reject_rstShadow (s : State) (e : Err) : (s.reject e).rstShadow = s.rstShadow := rfl
@[simp] theorem reject_trace (s : State) (e : Err) : (s.reject e).trace = s.trace := rfl
@[simp] theorem reject_replies (s : State) (e : Err) : (s.reject e).replies = s.replies := rfl
@[simp] theorem reject_drawn (s : State) (e : Err) : (s.reject e).drawn = s.drawn := rfl
@[simp] theorem reject_host (s : State) (e : Err) : (s.reject e).host = s.host := rfl
@[simp] theorem reject_hostData (s : State) (e : Err) : (s.reject e).hostData = s.hostData := rfl
@[simp] theorem reject_resets (s : State) (e : Err) : (s.reject e).resets = s.resets := rfl

/-! ### `State.setShadow` on chip-select -/

@[simp] theorem setShadow_cs_cfg (s : State) (l : Level) : (s.setShadow .cs l).cfg = s.cfg := rfl
@[simp] theorem setShadow_cs_life (s : State) (l : Level) : (s.setShadow .cs l).life = s.life := rfl
@[simp] theorem setShadow_cs_busy (s : State) (l : Level) : (s.setShadow .cs l).busy = s.busy := rfl
@[simp] theorem setShadow_cs_upc (s : State) (l : Level) : (s.setShadow .cs l).upc = s.upc := rfl
@[simp] theorem setShadow_cs_latch (s : State) (l : Level) : (s.setShadow .cs l).latch = s.latch := rfl
@[simp] theorem setShadow_cs_mode (s : State) (l : Level) : (s.setShadow .cs l).mode = s.mode := rfl
@[simp] theorem setShadow_cs_hdr (s : State) (l : Level) : (s.setShadow .cs l).hdr = s.hdr := rfl
@[simp] theorem setShadow_cs_freq (s : State) (l : Level) : (s.setShadow .cs l).freq = s.freq := rfl
@[simp] theorem setShadow_cs_status (s : State) (l : Level) : (s.setShadow .cs l).status = s.status := rfl
@[simp] theorem setShadow_cs_result (s : State) (l : Level) : (s.setShadow .cs l).result = s.result := rfl
@[simp] theorem setShadow_cs_txbuf (s : State) (l : Level) : (s.setShadow .cs l).txbuf = s.txbuf := rfl
@[simp] theorem setShadow_cs_txlen (s : State) (l : Level) : (s.setShadow .cs l).txlen = s.txlen := rfl
@[simp] theorem setShadow_cs_rxbuf (s : State) (l : Level) : (s.setShadow .cs l).rxbuf = s.rxbuf := rfl
@[simp] theorem setShadow_cs_rxlen (s : State) (l : Level) : (s.setShadow .cs l).rxlen = s.rxlen := rfl
@[simp] theorem setShadow_cs_work (s : State) (l : Level) : (s.setShadow .cs l).work = s.work := rfl
@[simp] theorem setShadow_cs_csShadow (s : State) (l : Level) : (s.setShadow .cs l).csShadow = l.shadow := rfl
@[simp] theorem setShadow_cs_rstShadow (s : State) (l : Level) : (s.setShadow .cs l).rstShadow = s.rstShadow := rfl
@[simp] theorem setShadow_cs_trace (s : State) (l : Level) : (s.setShadow .cs l).trace = s.trace := rfl
@[simp] theorem setShadow_cs_replies (s : State) (l : Level) : (s.setShadow .cs l).replies = s.replies := rfl
@[simp] theorem setShadow_cs_drawn (s : State) (l : Level) : (s.setShadow .cs l).drawn = s.drawn := rfl
@[simp] theorem setShadow_cs_host (s : State) (l : Level) : (s.setShadow .cs l).host = s.host := rfl
@[simp] theorem setShadow_cs_hostData (s : State) (l : Level) : (s.setShadow .cs l).hostData = s.hostData := rfl
@[simp] theorem setShadow_cs_resets (s : State) (l : Level) : (s.setShadow .cs l).resets = s.resets := rfl

/-! ### `State.setShadow` on the reset pin -/

@[simp] theorem setShadow_reset_cfg (s : State) (l : Level) : (s.setShadow .reset l).cfg = s.cfg := rfl
@[simp] theorem setShadow_reset_life (s : State) (l : Level) : (s.setShadow .reset l).life = s.life := rfl
@[simp] theorem setShadow_reset_busy (s : State) (l : Level) : (s.setShadow .reset l).busy = s.busy := rfl
@[simp] theorem setShadow_reset_upc (s : State) (l : Level) : (s.setShadow .reset l).upc = s.upc := rfl
@[simp] theorem setShadow_reset_latch (s : State) (l : Level) : (s.setShadow .reset l).latch = s.latch := rfl
@[simp] theorem setShadow_reset_mode (s : State) (l : Level) : (s.setShadow .reset l).mode = s.mode := rfl
@[simp] theorem setShadow_reset_hdr (s : State) (l : Level) : (s.setShadow .reset l).hdr = s.hdr := rfl
@[simp] theorem setShadow_reset_freq (s : State) (l : Level) : (s.setShadow .reset l).freq = s.freq := rfl
@[simp] theorem setShadow_reset_status (s : State) (l : Level) : (s.setShadow .reset l).status = s.status := rfl
@[simp] theorem setShadow_reset_result (s : State) (l : Level) : (s.setShadow .reset l).result = s.result := rfl
@[simp] theorem setShadow_reset_txbuf (s : State) (l : Level) : (s.setShadow .reset l).txbuf = s.txbuf := rfl
@[simp] theorem setShadow_reset_txlen (s : State) (l : Level) : (s.setShadow .reset l).txlen = s.txlen := rfl
@[simp] theorem setShadow_reset_rxbuf (s : State) (l : Level) : (s.setShadow .reset l).rxbuf = s.rxbuf := rfl
@[simp] theorem setShadow_reset_rxlen (s : State) (l : Level) : (s.setShadow .reset l).rxlen = s.rxlen := rfl
@[simp] theorem setShadow_reset_work (s : State) (l : Level) : (s.setShadow .reset l).work = s.work := rfl
@[simp] theorem setShadow_reset_csShadow (s : State) (l : Level) : (s.setShadow .reset l).csShadow = s.csShadow := rfl
@[simp] theorem setShadow_reset_rstShadow (s : State) (l : Level) : (s.setShadow .reset l).rstShadow = l.shadow := rfl
@[simp] theorem setShadow_reset_trace (s : State) (l : Level) : (s.setShadow .reset l).trace = s.trace := rfl
@[simp] theorem setShadow_reset_replies (s : State) (l : Level) : (s.setShadow .reset l).replies = s.replies := rfl
@[simp] theorem setShadow_reset_drawn (s : State) (l : Level) : (s.setShadow .reset l).drawn = s.drawn := rfl
@[simp] theorem setShadow_reset_host (s : State) (l : Level) : (s.setShadow .reset l).host = s.host := rfl
@[simp] theorem setShadow_reset_hostData (s : State) (l : Level) : (s.setShadow .reset l).hostData = s.hostData := rfl
@[simp] theorem setShadow_reset_resets (s : State) (l : Level) : (s.setShadow .reset l).resets = s.resets := rfl

/-! ### `State.blockReset` (70_reset_and_hazards.md R210) -/

@[simp] theorem blockReset_cfg (s : State) : (s.blockReset).cfg = s.cfg := rfl
@[simp] theorem blockReset_life (s : State) : (s.blockReset).life = State.reset.life := rfl
@[simp] theorem blockReset_busy (s : State) : (s.blockReset).busy = State.reset.busy := rfl
@[simp] theorem blockReset_upc (s : State) : (s.blockReset).upc = State.reset.upc := rfl
@[simp] theorem blockReset_latch (s : State) : (s.blockReset).latch = State.reset.latch := rfl
@[simp] theorem blockReset_mode (s : State) : (s.blockReset).mode = State.reset.mode := rfl
@[simp] theorem blockReset_hdr (s : State) : (s.blockReset).hdr = State.reset.hdr := rfl
@[simp] theorem blockReset_freq (s : State) : (s.blockReset).freq = State.reset.freq := rfl
@[simp] theorem blockReset_status (s : State) : (s.blockReset).status = State.reset.status := rfl
@[simp] theorem blockReset_result (s : State) : (s.blockReset).result = State.reset.result := rfl
@[simp] theorem blockReset_txbuf (s : State) : (s.blockReset).txbuf = State.reset.txbuf := rfl
@[simp] theorem blockReset_txlen (s : State) : (s.blockReset).txlen = State.reset.txlen := rfl
@[simp] theorem blockReset_rxbuf (s : State) : (s.blockReset).rxbuf = State.reset.rxbuf := rfl
@[simp] theorem blockReset_rxlen (s : State) : (s.blockReset).rxlen = State.reset.rxlen := rfl
@[simp] theorem blockReset_work (s : State) : (s.blockReset).work = State.reset.work := rfl
@[simp] theorem blockReset_csShadow (s : State) : (s.blockReset).csShadow = State.reset.csShadow := rfl
@[simp] theorem blockReset_rstShadow (s : State) : (s.blockReset).rstShadow = State.reset.rstShadow := rfl
@[simp] theorem blockReset_trace (s : State) : (s.blockReset).trace = s.trace := rfl
@[simp] theorem blockReset_replies (s : State) : (s.blockReset).replies = s.replies := rfl
@[simp] theorem blockReset_drawn (s : State) : (s.blockReset).drawn = s.drawn := rfl
@[simp] theorem blockReset_host (s : State) : (s.blockReset).host = s.host := rfl
@[simp] theorem blockReset_hostData (s : State) : (s.blockReset).hostData = s.hostData := rfl
@[simp] theorem blockReset_resets (s : State) : (s.blockReset).resets = s.resets + 1 := rfl

/-! ### `State.done` -/

@[simp] theorem done_cfg (s : State) (r : Word) (w : Work) (evs : List Event) (rest : List Reply) : (s.done r w evs rest).cfg = s.cfg := rfl
@[simp] theorem done_life (s : State) (r : Word) (w : Work) (evs : List Event) (rest : List Reply) : (s.done r w evs rest).life = s.life := rfl
@[simp] theorem done_busy (s : State) (r : Word) (w : Work) (evs : List Event) (rest : List Reply) : (s.done r w evs rest).busy = s.busy := rfl
@[simp] theorem done_upc (s : State) (r : Word) (w : Work) (evs : List Event) (rest : List Reply) : (s.done r w evs rest).upc = s.upc := rfl
@[simp] theorem done_latch (s : State) (r : Word) (w : Work) (evs : List Event) (rest : List Reply) : (s.done r w evs rest).latch = s.latch := rfl
@[simp] theorem done_mode (s : State) (r : Word) (w : Work) (evs : List Event) (rest : List Reply) : (s.done r w evs rest).mode = s.mode := rfl
@[simp] theorem done_hdr (s : State) (r : Word) (w : Work) (evs : List Event) (rest : List Reply) : (s.done r w evs rest).hdr = s.hdr := rfl
@[simp] theorem done_freq (s : State) (r : Word) (w : Work) (evs : List Event) (rest : List Reply) : (s.done r w evs rest).freq = s.freq := rfl
@[simp] theorem done_status (s : State) (r : Word) (w : Work) (evs : List Event) (rest : List Reply) : (s.done r w evs rest).status = 0x00 := rfl
@[simp] theorem done_result (s : State) (r : Word) (w : Work) (evs : List Event) (rest : List Reply) : (s.done r w evs rest).result = r := rfl
@[simp] theorem done_txbuf (s : State) (r : Word) (w : Work) (evs : List Event) (rest : List Reply) : (s.done r w evs rest).txbuf = s.txbuf := rfl
@[simp] theorem done_txlen (s : State) (r : Word) (w : Work) (evs : List Event) (rest : List Reply) : (s.done r w evs rest).txlen = s.txlen := rfl
@[simp] theorem done_rxbuf (s : State) (r : Word) (w : Work) (evs : List Event) (rest : List Reply) : (s.done r w evs rest).rxbuf = s.rxbuf := rfl
@[simp] theorem done_rxlen (s : State) (r : Word) (w : Work) (evs : List Event) (rest : List Reply) : (s.done r w evs rest).rxlen = s.rxlen := rfl
@[simp] theorem done_work (s : State) (r : Word) (w : Work) (evs : List Event) (rest : List Reply) : (s.done r w evs rest).work = w := rfl
@[simp] theorem done_csShadow (s : State) (r : Word) (w : Work) (evs : List Event) (rest : List Reply) : (s.done r w evs rest).csShadow = if evs = [] then s.csShadow else .high := rfl
@[simp] theorem done_rstShadow (s : State) (r : Word) (w : Work) (evs : List Event) (rest : List Reply) : (s.done r w evs rest).rstShadow = s.rstShadow := rfl
@[simp] theorem done_trace (s : State) (r : Word) (w : Work) (evs : List Event) (rest : List Reply) : (s.done r w evs rest).trace = s.trace ++ evs := rfl
@[simp] theorem done_replies (s : State) (r : Word) (w : Work) (evs : List Event) (rest : List Reply) : (s.done r w evs rest).replies = rest := rfl
@[simp] theorem done_drawn (s : State) (r : Word) (w : Work) (evs : List Event) (rest : List Reply) : (s.done r w evs rest).drawn = s.drawn := rfl
@[simp] theorem done_host (s : State) (r : Word) (w : Work) (evs : List Event) (rest : List Reply) : (s.done r w evs rest).host = s.host := rfl
@[simp] theorem done_hostData (s : State) (r : Word) (w : Work) (evs : List Event) (rest : List Reply) : (s.done r w evs rest).hostData = s.hostData := rfl
@[simp] theorem done_resets (s : State) (r : Word) (w : Work) (evs : List Event) (rest : List Reply) : (s.done r w evs rest).resets = s.resets := rfl

/-! ### `State.store`: only the working registers, or `RXBUF`, change -/

@[simp] theorem store_cfg (s : State) (d : Dest) (b : Byte) : (s.store d b).cfg = s.cfg := by cases d <;> rfl
@[simp] theorem store_life (s : State) (d : Dest) (b : Byte) : (s.store d b).life = s.life := by cases d <;> rfl
@[simp] theorem store_busy (s : State) (d : Dest) (b : Byte) : (s.store d b).busy = s.busy := by cases d <;> rfl
@[simp] theorem store_upc (s : State) (d : Dest) (b : Byte) : (s.store d b).upc = s.upc := by cases d <;> rfl
@[simp] theorem store_latch (s : State) (d : Dest) (b : Byte) : (s.store d b).latch = s.latch := by cases d <;> rfl
@[simp] theorem store_mode (s : State) (d : Dest) (b : Byte) : (s.store d b).mode = s.mode := by cases d <;> rfl
@[simp] theorem store_hdr (s : State) (d : Dest) (b : Byte) : (s.store d b).hdr = s.hdr := by cases d <;> rfl
@[simp] theorem store_freq (s : State) (d : Dest) (b : Byte) : (s.store d b).freq = s.freq := by cases d <;> rfl
@[simp] theorem store_status (s : State) (d : Dest) (b : Byte) : (s.store d b).status = s.status := by cases d <;> rfl
@[simp] theorem store_result (s : State) (d : Dest) (b : Byte) : (s.store d b).result = s.result := by cases d <;> rfl
@[simp] theorem store_txbuf (s : State) (d : Dest) (b : Byte) : (s.store d b).txbuf = s.txbuf := by cases d <;> rfl
@[simp] theorem store_txlen (s : State) (d : Dest) (b : Byte) : (s.store d b).txlen = s.txlen := by cases d <;> rfl
@[simp] theorem store_rxlen (s : State) (d : Dest) (b : Byte) : (s.store d b).rxlen = s.rxlen := by cases d <;> rfl
@[simp] theorem store_csShadow (s : State) (d : Dest) (b : Byte) : (s.store d b).csShadow = s.csShadow := by cases d <;> rfl
@[simp] theorem store_rstShadow (s : State) (d : Dest) (b : Byte) : (s.store d b).rstShadow = s.rstShadow := by cases d <;> rfl
@[simp] theorem store_trace (s : State) (d : Dest) (b : Byte) : (s.store d b).trace = s.trace := by cases d <;> rfl
@[simp] theorem store_replies (s : State) (d : Dest) (b : Byte) : (s.store d b).replies = s.replies := by cases d <;> rfl
@[simp] theorem store_drawn (s : State) (d : Dest) (b : Byte) : (s.store d b).drawn = s.drawn := by cases d <;> rfl
@[simp] theorem store_host (s : State) (d : Dest) (b : Byte) : (s.store d b).host = s.host := by cases d <;> rfl
@[simp] theorem store_hostData (s : State) (d : Dest) (b : Byte) : (s.store d b).hostData = s.hostData := by cases d <;> rfl
@[simp] theorem store_resets (s : State) (d : Dest) (b : Byte) : (s.store d b).resets = s.resets := by cases d <;> rfl
@[simp] theorem store_regT (s : State) (b : Byte) :
    s.store .regT b = { s with work := { s.work with t := b } } := rfl
@[simp] theorem store_regN (s : State) (b : Byte) :
    s.store .regN b = { s with work := { s.work with n := b } } := rfl
@[simp] theorem store_regCur (s : State) (b : Byte) :
    s.store .regCur b = { s with work := { s.work with cur := b } } := rfl
@[simp] theorem store_regM (s : State) (b : Byte) :
    s.store .regM b = { s with work := { s.work with m := b } } := rfl
@[simp] theorem store_regMi (s : State) (b : Byte) :
    s.store .regMi b = { s with work := { s.work with mi := b } } := rfl
@[simp] theorem store_regL (s : State) (b : Byte) :
    s.store .regL b = { s with work := { s.work with l := b } } := rfl
@[simp] theorem store_rxByte (s : State) (b : Byte) :
    s.store .rxByte b = { s with rxbuf := Buffer.write s.rxbuf s.work.idx.toNat b } := rfl

@[simp] theorem shadow_high : Level.shadow .high = .high := rfl
@[simp] theorem shadow_low : Level.shadow .low = .low := rfl

/-- A pin's shadow is the only field a commanded level changes. -/
theorem setShadow_frame (s : State) (p : Pin) (l : Level) :
    s.setShadow p l = { s with csShadow := (s.setShadow p l).csShadow, rstShadow := (s.setShadow p l).rstShadow } := by
  cases p <;> rfl

/-! ### `State.doneErr` -/

@[simp] theorem doneErr_cfg (s : State) (c : Byte) (i : Word) (w : Work) (evs : List Event) (rest : List Reply) :
    (s.doneErr c i w evs rest).cfg = s.cfg := rfl
@[simp] theorem doneErr_life (s : State) (c : Byte) (i : Word) (w : Work) (evs : List Event) (rest : List Reply) :
    (s.doneErr c i w evs rest).life = s.life := rfl
@[simp] theorem doneErr_busy (s : State) (c : Byte) (i : Word) (w : Work) (evs : List Event) (rest : List Reply) :
    (s.doneErr c i w evs rest).busy = s.busy := rfl
@[simp] theorem doneErr_upc (s : State) (c : Byte) (i : Word) (w : Work) (evs : List Event) (rest : List Reply) :
    (s.doneErr c i w evs rest).upc = s.upc := rfl
@[simp] theorem doneErr_latch (s : State) (c : Byte) (i : Word) (w : Work) (evs : List Event) (rest : List Reply) :
    (s.doneErr c i w evs rest).latch = s.latch := rfl
@[simp] theorem doneErr_mode (s : State) (c : Byte) (i : Word) (w : Work) (evs : List Event) (rest : List Reply) :
    (s.doneErr c i w evs rest).mode = s.mode := rfl
@[simp] theorem doneErr_hdr (s : State) (c : Byte) (i : Word) (w : Work) (evs : List Event) (rest : List Reply) :
    (s.doneErr c i w evs rest).hdr = s.hdr := rfl
@[simp] theorem doneErr_freq (s : State) (c : Byte) (i : Word) (w : Work) (evs : List Event) (rest : List Reply) :
    (s.doneErr c i w evs rest).freq = s.freq := rfl
@[simp] theorem doneErr_status (s : State) (c : Byte) (i : Word) (w : Work) (evs : List Event) (rest : List Reply) :
    (s.doneErr c i w evs rest).status = c := rfl
@[simp] theorem doneErr_result (s : State) (c : Byte) (i : Word) (w : Work) (evs : List Event) (rest : List Reply) :
    (s.doneErr c i w evs rest).result = i := rfl
@[simp] theorem doneErr_txbuf (s : State) (c : Byte) (i : Word) (w : Work) (evs : List Event) (rest : List Reply) :
    (s.doneErr c i w evs rest).txbuf = s.txbuf := rfl
@[simp] theorem doneErr_txlen (s : State) (c : Byte) (i : Word) (w : Work) (evs : List Event) (rest : List Reply) :
    (s.doneErr c i w evs rest).txlen = s.txlen := rfl
@[simp] theorem doneErr_rxbuf (s : State) (c : Byte) (i : Word) (w : Work) (evs : List Event) (rest : List Reply) :
    (s.doneErr c i w evs rest).rxbuf = s.rxbuf := rfl
@[simp] theorem doneErr_rxlen (s : State) (c : Byte) (i : Word) (w : Work) (evs : List Event) (rest : List Reply) :
    (s.doneErr c i w evs rest).rxlen = s.rxlen := rfl
@[simp] theorem doneErr_work (s : State) (c : Byte) (i : Word) (w : Work) (evs : List Event) (rest : List Reply) :
    (s.doneErr c i w evs rest).work = w := rfl
@[simp] theorem doneErr_csShadow (s : State) (c : Byte) (i : Word) (w : Work) (evs : List Event) (rest : List Reply) :
    (s.doneErr c i w evs rest).csShadow = if evs = [] then s.csShadow else .high := rfl
@[simp] theorem doneErr_rstShadow (s : State) (c : Byte) (i : Word) (w : Work) (evs : List Event) (rest : List Reply) :
    (s.doneErr c i w evs rest).rstShadow = s.rstShadow := rfl
@[simp] theorem doneErr_trace (s : State) (c : Byte) (i : Word) (w : Work) (evs : List Event) (rest : List Reply) :
    (s.doneErr c i w evs rest).trace = s.trace ++ evs := rfl
@[simp] theorem doneErr_replies (s : State) (c : Byte) (i : Word) (w : Work) (evs : List Event) (rest : List Reply) :
    (s.doneErr c i w evs rest).replies = rest := rfl
@[simp] theorem doneErr_drawn (s : State) (c : Byte) (i : Word) (w : Work) (evs : List Event) (rest : List Reply) :
    (s.doneErr c i w evs rest).drawn = s.drawn := rfl
@[simp] theorem doneErr_host (s : State) (c : Byte) (i : Word) (w : Work) (evs : List Event) (rest : List Reply) :
    (s.doneErr c i w evs rest).host = s.host := rfl
@[simp] theorem doneErr_hostData (s : State) (c : Byte) (i : Word) (w : Work) (evs : List Event) (rest : List Reply) :
    (s.doneErr c i w evs rest).hostData = s.hostData := rfl
@[simp] theorem doneErr_resets (s : State) (c : Byte) (i : Word) (w : Work) (evs : List Event) (rest : List Reply) :
    (s.doneErr c i w evs rest).resets = s.resets := rfl

/-! ### `State.faulted` (60_exceptions.md R181 to R184) -/

@[simp] theorem faulted_cfg (s : State) (c : Byte) (e : Event) :
    (s.faulted c e).cfg = s.cfg := rfl
@[simp] theorem faulted_life (s : State) (c : Byte) (e : Event) :
    (s.faulted c e).life = if isInit s.latch then .failed else s.life := rfl
@[simp] theorem faulted_busy (s : State) (c : Byte) (e : Event) :
    (s.faulted c e).busy = false := rfl
@[simp] theorem faulted_upc (s : State) (c : Byte) (e : Event) :
    (s.faulted c e).upc = [] := rfl
@[simp] theorem faulted_latch (s : State) (c : Byte) (e : Event) :
    (s.faulted c e).latch = none := rfl
@[simp] theorem faulted_mode (s : State) (c : Byte) (e : Event) :
    (s.faulted c e).mode = s.mode := rfl
@[simp] theorem faulted_hdr (s : State) (c : Byte) (e : Event) :
    (s.faulted c e).hdr = s.hdr := rfl
@[simp] theorem faulted_freq (s : State) (c : Byte) (e : Event) :
    (s.faulted c e).freq = s.freq := rfl
@[simp] theorem faulted_status (s : State) (c : Byte) (e : Event) :
    (s.faulted c e).status = c := rfl
@[simp] theorem faulted_result (s : State) (c : Byte) (e : Event) :
    (s.faulted c e).result = 0 := rfl
@[simp] theorem faulted_txbuf (s : State) (c : Byte) (e : Event) :
    (s.faulted c e).txbuf = s.txbuf := rfl
@[simp] theorem faulted_txlen (s : State) (c : Byte) (e : Event) :
    (s.faulted c e).txlen = s.txlen := rfl
@[simp] theorem faulted_rxbuf (s : State) (c : Byte) (e : Event) :
    (s.faulted c e).rxbuf = s.rxbuf := rfl
@[simp] theorem faulted_rxlen (s : State) (c : Byte) (e : Event) :
    (s.faulted c e).rxlen = s.rxlen := rfl
@[simp] theorem faulted_work (s : State) (c : Byte) (e : Event) :
    (s.faulted c e).work = s.work := rfl
@[simp] theorem faulted_csShadow (s : State) (c : Byte) (e : Event) :
    (s.faulted c e).csShadow = .unknown := rfl
@[simp] theorem faulted_rstShadow (s : State) (c : Byte) (e : Event) :
    (s.faulted c e).rstShadow = s.rstShadow := rfl
@[simp] theorem faulted_trace (s : State) (c : Byte) (e : Event) :
    (s.faulted c e).trace = s.trace ++ [e] := rfl
@[simp] theorem faulted_replies (s : State) (c : Byte) (e : Event) :
    (s.faulted c e).replies = s.replies := rfl
@[simp] theorem faulted_drawn (s : State) (c : Byte) (e : Event) :
    (s.faulted c e).drawn = s.drawn := rfl
@[simp] theorem faulted_host (s : State) (c : Byte) (e : Event) :
    (s.faulted c e).host = s.host := rfl
@[simp] theorem faulted_hostData (s : State) (c : Byte) (e : Event) :
    (s.faulted c e).hostData = s.hostData := rfl
@[simp] theorem faulted_resets (s : State) (c : Byte) (e : Event) :
    (s.faulted c e).resets = s.resets := rfl

end Sys2Proof.Machine
end

