-- ==== Sys2Proof/Laws/Buffer.lean ====
section
/-! SUPPORT. The laws of the 255-byte buffers: a read after a write, and that every operation keeps the canonical form. -/

namespace Sys2Proof.Machine

theorem read_insert_same (m : Buffer) (i : Nat) (v : Byte) : Buffer.read (Buffer.insert m i v) i = some v := by
  induction m with
  | nil => simp [Buffer.insert, Buffer.read]
  | cons c rest ih =>
    obtain ⟨a, b⟩ := c
    simp only [Buffer.insert]
    split
    · simp [Buffer.read]
    · split
      · simp [Buffer.read]
      · simp only [Buffer.read]
        rw [if_neg (by omega)]
        exact ih

theorem read_insert_other (m : Buffer) (i j : Nat) (v : Byte) (h : j ≠ i) :
    Buffer.read (Buffer.insert m i v) j = Buffer.read m j := by
  induction m with
  | nil => simp [Buffer.insert, Buffer.read, Ne.symm h]
  | cons c rest ih =>
    obtain ⟨a, b⟩ := c
    simp only [Buffer.insert]
    split
    · simp [Buffer.read, Ne.symm h]
    · split
      · subst_vars
        simp [Buffer.read, Ne.symm h]
      · simp only [Buffer.read, ih]

/-- A read after a write of the same byte gives the value written. -/
@[simp] theorem read_write_same (m : Buffer) (i : Nat) (v : Byte) (h : i < bufLen) :
    Buffer.read (Buffer.write m i v) i = some v := by
  simp [Buffer.write, h, read_insert_same]

/-- A write leaves every other byte as it was. -/
theorem read_write_other (m : Buffer) (i j : Nat) (v : Byte) (h : j ≠ i) :
    Buffer.read (Buffer.write m i v) j = Buffer.read m j := by
  simp only [Buffer.write]
  split
  · exact read_insert_other m i j v h
  · rfl

theorem risesFrom_mono (m : Buffer) (lo lo' : Nat) (h : lo' ≤ lo) (hm : Buffer.risesFrom lo m = true) :
    Buffer.risesFrom lo' m = true := by
  cases m with
  | nil => rfl
  | cons c rest =>
    obtain ⟨a, b⟩ := c
    simp only [Buffer.risesFrom, Bool.and_eq_true, decide_eq_true_eq] at hm ⊢
    exact ⟨⟨by omega, hm.1.2⟩, hm.2⟩

theorem insert_risesFrom (m : Buffer) (lo i : Nat) (v : Byte) (hlo : lo ≤ i) (hi : i < bufLen)
    (hm : Buffer.risesFrom lo m = true) : Buffer.risesFrom lo (Buffer.insert m i v) = true := by
  induction m generalizing lo with
  | nil => simp [Buffer.insert, Buffer.risesFrom, hlo, hi]
  | cons c rest ih =>
    obtain ⟨a, b⟩ := c
    simp only [Buffer.risesFrom, Bool.and_eq_true, decide_eq_true_eq] at hm
    simp only [Buffer.insert]
    split
    · simp only [Buffer.risesFrom, Bool.and_eq_true, decide_eq_true_eq]
      exact ⟨⟨hlo, hi⟩, ⟨by omega, hm.1.2⟩, hm.2⟩
    · split
      · subst_vars
        simp only [Buffer.risesFrom, Bool.and_eq_true, decide_eq_true_eq]
        exact ⟨⟨hlo, hi⟩, hm.2⟩
      · simp only [Buffer.risesFrom, Bool.and_eq_true, decide_eq_true_eq]
        exact ⟨⟨hm.1.1, hm.1.2⟩, ih (a + 1) (by omega) hm.2⟩

/-- A write keeps the canonical form. -/
theorem write_wf (m : Buffer) (i : Nat) (v : Byte) (hm : Buffer.wf m = true) : Buffer.wf (Buffer.write m i v) = true := by
  simp only [Buffer.write]
  split
  · next h => exact insert_risesFrom m 0 i v (Nat.zero_le i) h hm
  · exact hm

/-- The read-out of a packet keeps the canonical form. -/
theorem writeFrom_wf (ps : List (Byte × Byte)) (m : Buffer) (i : Nat) (hm : Buffer.wf m = true) :
    Buffer.wf (writeFrom m i ps) = true := by
  induction ps generalizing m i with
  | nil => exact hm
  | cons p ps ih => exact ih _ _ (write_wf m i p.2 hm)

/-- Both buffers are canonical after reset. -/
theorem reset_buffers_wf : Buffer.wf State.reset.txbuf = true ∧ Buffer.wf State.reset.rxbuf = true := by decide

/-- A byte that reads as written lies in the buffer. -/
theorem read_lt_of_risesFrom (m : Buffer) (lo i : Nat) (b : Byte) (hm : Buffer.risesFrom lo m = true)
    (h : Buffer.read m i = some b) : lo ≤ i ∧ i < bufLen := by
  induction m generalizing lo with
  | nil => simp [Buffer.read] at h
  | cons c rest ih =>
    obtain ⟨a, b'⟩ := c
    simp only [Buffer.risesFrom, Bool.and_eq_true, decide_eq_true_eq] at hm
    simp only [Buffer.read] at h
    split at h
    · omega
    · have := ih (a + 1) hm.2 h
      omega

end Sys2Proof.Machine
end

