-- ==== Sys2Proof/Laws/Run.lean ====
section
/-! SUPPORT. Running a micro-sequence: one lemma per primitive, one per transaction, and the composition of what they leave. -/

namespace Sys2Proof.Machine

/-- What successful transactions leave behind: their events, their replies used, chip-select high, other working registers. -/
def State.saw (s : State) (w : Work) (evs : List Event) (rest : List Reply) : State :=
  { s with
    work := w
    trace := s.trace ++ evs
    replies := rest
    csShadow := if evs = [] then s.csShadow else .high }

@[simp] theorem saw_saw (s : State) (w w' : Work) (e e' : List Event) (r r' : List Reply) :
    (s.saw w e r).saw w' e' r' = s.saw w' (e ++ e') r' := by
  unfold State.saw
  by_cases h : e = [] <;> by_cases h' : e' = [] <;> simp [h, h']

theorem saw_nil (s : State) : s.saw s.work [] s.replies = s := by
  simp [State.saw]

/-- A success at the end of an accepted command leaves `State.done`. -/
theorem complete_saw (s : State) (i : Option Instr) (r : Word) (w : Work) (evs : List Event) (rest : List Reply) (h : s.Idle) :
    (State.saw { s with busy := true, latch := i } w evs rest).complete r = s.done r w evs rest := by
  obtain ⟨h1, h2, h3⟩ := h
  simp [State.saw, State.complete, State.done, statusOk, h1, h2, h3]

@[simp] theorem run_zero (s : State) : run 0 s = s := rfl

/-- Nothing runs where no primitive waits. -/
@[simp] theorem run_of_upc_nil (n : Nat) (s : State) (h : s.upc = []) : run n s = s := by
  cases n with
  | zero => rfl
  | succ n =>
    simp only [run]
    split
    · rfl
    · simp [h, answers]

/-- Nothing runs without a reply at hand. -/
@[simp] theorem run_of_replies_nil (n : Nat) (s : State) (h : s.replies = []) : run n s = s := by
  cases n with
  | zero => rfl
  | succ n => simp [run, h]

/-- A pin primitive takes the reply at hand. -/
theorem run_pin (n : Nat) (s : State) (p : Pin) (l : Level) (ok : Bool) (ops : List MicroOp) (rs : List Reply)
    (hr : s.replies = .pin ok :: rs) :
    run (n + 1) (advance (.pin p l :: ops) s) = run n (afterPin p l ok ops { s with upc := .pin p l :: ops, replies := rs }) := by
  simp [advance, run, hr, answers, perform]

/-- The transfer of a read takes the reply at hand. -/
theorem run_recv (n : Nat) (s : State) (a : RegAddr) (x : Option (Byte × Byte)) (ops : List MicroOp) (rs : List Reply)
    (hr : s.replies = .xfer x :: rs) :
    run (n + 1) (advance (.recv a :: ops) s) = run n (afterRecv a x ops { s with upc := .recv a :: ops, replies := rs }) := by
  simp [advance, run, hr, answers, perform]

/-- The transfer of a write takes the reply at hand. -/
theorem run_send (n : Nat) (s : State) (a : RegAddr) (src : ByteSrc) (x : Option (Byte × Byte)) (ops : List MicroOp)
    (rs : List Reply) (hr : s.replies = .xfer x :: rs) :
    run (n + 1) (advance (.send a src :: ops) s) =
      run n (afterSend a (s.byteOf src) x ops { s with upc := .send a src :: ops, replies := rs }) := by
  simp only [advance, run, hr, answers, perform, if_true]
  rfl

/-- A delay takes the reply at hand, and is one event. -/
theorem run_delay (k : Nat) (s : State) (n : Nat) (ops : List MicroOp) (rs : List Reply) (hr : s.replies = .delay :: rs) :
    run (k + 1) (advance (.delay n :: ops) s) = run k (afterDelay n ops { s with upc := .delay n :: ops, replies := rs }) := by
  simp [advance, run, hr, answers, perform]

/-- Where `upc` stood before is forgotten by the next movement. -/
@[simp] theorem advance_upc (ops : List MicroOp) (s : State) (u : List MicroOp) :
    advance ops { s with upc := u } = advance ops s := by
  induction ops, s using advance.induct with
  | case1 s => rfl
  | case2 r _ s => simp [advance, State.complete]; cases r <;> rfl
  | case3 p l rest s => rfl
  | case4 a rest s => rfl
  | case5 a src rest s => rfl
  | case6 f rest s => rfl
  | case7 n rest s => rfl
  | case8 d rest s ih => cases d <;> exact ih
  | case9 l rest s ih => exact ih
  | case10 h rest s ih => exact ih
  | case11 m rest s ih => exact ih
  | case12 f rest s ih => exact ih
  | case13 rest s h ih => simpa [advance, h] using ih
  | case14 rest s h => simp [advance, h, State.abort]
  | case15 rest s hz h ih => simpa [advance, h] using ih
  | case16 rest s h => simp [advance, h, State.abort]
  | case17 rest s ih => exact ih
  | case18 rest s ih => exact ih
  | case19 rest s ih => exact ih
  | case20 rest s ih => exact ih
  | case21 rest s h => simp [advance, h]
  | case22 rest s h ih => simpa [advance, h] using ih
  | case23 rest s h => simp [advance, h]
  | case24 rest s h ih => simpa [advance, h] using ih
  | case25 rest s h ih => simpa [advance, h] using ih
  | case26 rest s h => simp [advance, h]
  | case27 rest s ih => exact ih
  | case28 b rest s h ih => simpa [advance, h] using ih
  | case29 b rest s h h' => simp [advance, h, h', State.abort]
  | case30 b rest s h h' => simp [advance, h, h']
  | case31 rest s ih => exact ih

/-- A read transaction that succeeds. -/
theorem run_rd (k : Nat) (s : State) (a : RegAddr) (d : Dest) (p : Byte × Byte) (ops : List MicroOp) (rest : List Reply)
    (hk : 3 ≤ k) (hr : s.replies = txn p ++ rest) :
    run k (advance (rd a d ++ ops) s) =
      run (k - 3) (advance ops ((s.saw { s.work with rx := p.2 } (rdEv a p) rest).store d p.2)) := by
  obtain ⟨n, rfl⟩ : ∃ n, k = n + 3 := ⟨k - 3, by omega⟩
  simp only [rd, List.cons_append, List.nil_append, txn] at hr ⊢
  rw [run_pin (n + 2) s .cs .low true _ _ hr]
  simp only [afterPin, if_true]
  rw [run_recv (n + 1) _ a (some p) _ (.pin true :: rest) (by rfl)]
  simp only [afterRecv]
  rw [run_pin n _ .cs .high true _ rest (by rfl)]
  simp only [afterPin, if_true, advance, Nat.add_sub_cancel]
  congr 1
  rw [← advance_upc ops _ s.upc]
  congr 1
  cases d <;> simp [State.saw, State.log, State.setShadow, State.store, rdEv]

/-- A write transaction that succeeds. -/
theorem run_wr (k : Nat) (s : State) (a : RegAddr) (src : ByteSrc) (p : Byte × Byte) (ops : List MicroOp) (rest : List Reply)
    (hk : 3 ≤ k) (hr : s.replies = txn p ++ rest) :
    run k (advance (wr a src ++ ops) s) = run (k - 3) (advance ops (s.saw s.work (wrEv a (s.byteOf src) p) rest)) := by
  obtain ⟨n, rfl⟩ : ∃ n, k = n + 3 := ⟨k - 3, by omega⟩
  simp only [wr, List.cons_append, List.nil_append, txn] at hr ⊢
  rw [run_pin (n + 2) s .cs .low true _ _ hr]
  simp only [afterPin, if_true]
  rw [run_send (n + 1) _ a src (some p) _ (.pin true :: rest) (by rfl)]
  simp only [afterSend]
  rw [run_pin n _ .cs .high true _ rest (by rfl)]
  simp only [afterPin, if_true, Nat.add_sub_cancel]
  congr 1
  rw [← advance_upc ops _ s.upc]
  congr 1
  have hb : ∀ s' : State, s'.cfg = s.cfg → s'.hdr = s.hdr → s'.work = s.work → s'.txbuf = s.txbuf → s'.resets = s.resets →
      s'.byteOf src = s.byteOf src := by
    intro s' h1 h2 h3 h4 h5
    rcases src with v | ⟨m, v⟩ | _ | _ | _ | _ <;>
      (try cases v) <;> simp [State.byteOf, State.fieldVal, State.txAt, h1, h2, h3, h4, h5]
  simp [State.saw, State.log, State.setShadow, wrEv]
  exact hb _ rfl rfl rfl rfl rfl

@[simp] theorem saw_replies (s : State) (w : Work) (e : List Event) (r : List Reply) : (s.saw w e r).replies = r := rfl
@[simp] theorem saw_work (s : State) (w : Work) (e : List Event) (r : List Reply) : (s.saw w e r).work = w := rfl
@[simp] theorem saw_cfg (s : State) (w : Work) (e : List Event) (r : List Reply) : (s.saw w e r).cfg = s.cfg := rfl
@[simp] theorem saw_hdr (s : State) (w : Work) (e : List Event) (r : List Reply) : (s.saw w e r).hdr = s.hdr := rfl
@[simp] theorem saw_txlen (s : State) (w : Work) (e : List Event) (r : List Reply) : (s.saw w e r).txlen = s.txlen := rfl

/-- A read transaction that succeeds, with exactly the replies at hand counted. -/
theorem rd_step (s : State) (w : Work) (e : List Event) (a : RegAddr) (d : Dest) (p : Byte × Byte) (ops : List MicroOp)
    (rest : List Reply) :
    run (txn p ++ rest).length (advance (rd a d ++ ops) (s.saw w e (txn p ++ rest))) =
      run rest.length (advance ops ((s.saw { w with rx := p.2 } (e ++ rdEv a p) rest).store d p.2)) := by
  rw [run_rd _ _ a d p ops rest (by simp [txn]) rfl]
  simp [txn]

/-- A write transaction that succeeds, with exactly the replies at hand counted. -/
theorem wr_step (s : State) (w : Work) (e : List Event) (a : RegAddr) (src : ByteSrc) (p : Byte × Byte) (ops : List MicroOp)
    (rest : List Reply) :
    run (txn p ++ rest).length (advance (wr a src ++ ops) (s.saw w e (txn p ++ rest))) =
      run rest.length (advance ops (s.saw w (e ++ wrEv a ((s.saw w e (txn p ++ rest)).byteOf src) p) rest)) := by
  rw [run_wr _ _ a src p ops rest (by simp [txn]) rfl]
  simp [txn]

end Sys2Proof.Machine
end

