-- ==== Sys2Proof/Laws/Frame.lean ====
section
/-! SUPPORT. What moving `upc`, performing primitives and running a micro-sequence leave alone, whatever the replies. -/

namespace Sys2Proof.Machine

/-- A property that every performed primitive keeps is kept by running a micro-sequence. -/
theorem run_keeps (P : State → Prop)
    (h : ∀ (r : Reply) (rs : List Reply) (s : State), s.replies = r :: rs → answers r s.upc = true → P s →
      P (perform r { s with replies := rs }))
    (n : Nat) (s : State) (hs : P s) : P (run n s) := by
  induction n generalizing s with
  | zero => exact hs
  | succ n ih =>
    simp only [run]
    split
    · exact hs
    · next r rs hr =>
      split
      · next ha => exact ih _ (h r rs s hr ha hs)
      · exact hs

/-- Moving `upc` leaves the parameters, the host's side and the inputs alone, and the trace only grows. -/
theorem advance_frame (ops : List MicroOp) (s : State) :
    (advance ops s).cfg = s.cfg ∧ (advance ops s).txbuf = s.txbuf ∧ (advance ops s).txlen = s.txlen ∧
    (advance ops s).replies = s.replies ∧ (advance ops s).drawn = s.drawn ∧ (advance ops s).host = s.host ∧
    (advance ops s).hostData = s.hostData ∧ (advance ops s).resets = s.resets ∧
    ∃ evs, (advance ops s).trace = s.trace ++ evs := by
  induction ops, s using advance.induct with
  | case1 s => simp [advance]
  | case2 r _ s => simp [advance]
  | case3 p l rest s => simp [advance]
  | case4 a rest s => simp [advance]
  | case5 a src rest s => simp [advance]
  | case6 f rest s => simp [advance]
  | case7 n rest s => simp [advance]
  | case8 d rest s ih => simp only [advance]; cases d <;> exact ih
  | case9 l rest s ih => exact ih
  | case10 h rest s ih => exact ih
  | case11 m rest s ih => exact ih
  | case12 f rest s ih => exact ih
  | case13 rest s h ih => simpa [advance, h] using ih
  | case14 rest s h => simp [advance, h, State.abort]
  | case15 rest s hz h ih => simpa [advance, h] using ih
  | case16 rest s h => simp [advance, h, State.abort]
  | case17 rest s ih => exact ih
  | case18 rest s ih => exact ih
  | case19 rest s ih => exact ih
  | case20 rest s ih => exact ih
  | case21 rest s h => simp [advance, h]
  | case22 rest s h ih => simpa [advance, h] using ih
  | case23 rest s h => simp [advance, h]
  | case24 rest s h ih => simpa [advance, h] using ih
  | case25 rest s h ih => simpa [advance, h] using ih
  | case26 rest s h => simp [advance, h]
  | case27 rest s ih => exact ih
  | case28 b rest s h ih => simpa [advance, h] using ih
  | case29 b rest s h h' => simp [advance, h, h', State.abort]
  | case30 b rest s h h' => simp [advance, h, h']
  | case31 rest s ih => exact ih

/-- Performing a primitive does the same. -/
theorem perform_frame (r : Reply) (s : State) :
    (perform r s).cfg = s.cfg ∧ (perform r s).txbuf = s.txbuf ∧ (perform r s).txlen = s.txlen ∧
    (perform r s).replies = s.replies ∧ (perform r s).drawn = s.drawn ∧ (perform r s).host = s.host ∧
    (perform r s).hostData = s.hostData ∧ (perform r s).resets = s.resets ∧
    ∃ evs, (perform r s).trace = s.trace ++ evs := by
  unfold perform
  split
  · next p l rest ok _ =>
    unfold afterPin
    split
    · have h := advance_frame rest ((s.log (.pin p l true)).setShadow p l)
      rw [setShadow_frame] at h
      rw [setShadow_frame]
      obtain ⟨h1, h2, h3, h4, h5, h6, h7, h8, evs, h9⟩ := h
      refine ⟨h1, h2, h3, h4, h5, h6, h7, h8, ?_⟩
      exact ⟨_, by rw [h9]; simp [State.log, List.append_assoc]; rfl⟩
    · simp [State.log]
  · next a rest x _ =>
    unfold afterRecv
    split
    · next p =>
      obtain ⟨h1, h2, h3, h4, h5, h6, h7, h8, evs, h9⟩ := advance_frame rest { s.log (.xfer (readHeader a) 0x00 (some p)) with work := { s.work with rx := p.2 } }
      refine ⟨h1, h2, h3, h4, h5, h6, h7, h8, ?_⟩
      exact ⟨_, by rw [h9]; simp [State.log, List.append_assoc]; rfl⟩
    · simp [State.log]
  · next a src rest x _ =>
    unfold afterSend
    split
    · next p =>
      obtain ⟨h1, h2, h3, h4, h5, h6, h7, h8, evs, h9⟩ := advance_frame rest (s.log (.xfer (writeHeader a) (s.byteOf src) (some p)))
      refine ⟨h1, h2, h3, h4, h5, h6, h7, h8, ?_⟩
      exact ⟨_, by rw [h9]; simp [State.log, List.append_assoc]; rfl⟩
    · simp [State.log]
  · next n rest _ =>
    obtain ⟨h1, h2, h3, h4, h5, h6, h7, h8, evs, h9⟩ := advance_frame rest (s.log (.delay n))
    refine ⟨h1, h2, h3, h4, h5, h6, h7, h8, ?_⟩
    exact ⟨_, by rw [afterDelay, h9]; simp [State.log, List.append_assoc]; rfl⟩
  · simp

/-- Running does the same, and takes replies from the front. -/
theorem run_frame (n : Nat) (s : State) :
    (run n s).cfg = s.cfg ∧ (run n s).txbuf = s.txbuf ∧ (run n s).txlen = s.txlen ∧
    (run n s).drawn = s.drawn ∧ (run n s).host = s.host ∧
    (run n s).hostData = s.hostData ∧ (run n s).resets = s.resets ∧ (∃ evs, (run n s).trace = s.trace ++ evs) ∧
    (∃ used, s.replies = used ++ (run n s).replies) := by
  induction n generalizing s with
  | zero => simp
  | succ n ih =>
    simp only [run]
    split
    · simp
    · next r rs hr =>
      split
      · obtain ⟨a1, a2, a3, a4, a5, a6, a7, ⟨e, a8⟩, ⟨u, a9⟩⟩ := ih (perform r { s with replies := rs })
        obtain ⟨b1, b2, b3, b4, b5, b6, b7, b8, ⟨f, b9⟩⟩ := perform_frame r { s with replies := rs }
        refine ⟨by rw [a1, b1],by rw [a2, b2],by rw[a3, b3],by rw [a4, b5],by rw [a5, b6],by rw [a6, b7],by rw [a7, b8],?_,?_⟩
        · exact ⟨f ++ e, by rw [a8, b9]; simp⟩
        · rw [hr]; rw [b4] at a9; simp only at a9
          exact ⟨r :: u, by simp [← a9]⟩
      · simp

/-- What the host does next has no part in the movement of `upc`. -/
theorem advance_host (ops : List MicroOp) (s : State) (h : List HostOp) :
    advance ops { s with host := h } = { advance ops s with host := h } := by
  induction ops, s using advance.induct with
  | case1 s => rfl
  | case2 r _ s => cases r <;> rfl
  | case3 p l rest s => rfl
  | case4 a rest s => rfl
  | case5 a src rest s => rfl
  | case6 f rest s => rfl
  | case7 n rest s => rfl
  | case8 d rest s ih => cases d <;> exact ih
  | case9 l rest s ih => exact ih
  | case10 h' rest s ih => exact ih
  | case11 m rest s ih => exact ih
  | case12 f rest s ih => exact ih
  | case13 rest s hc ih => simpa [advance, hc] using ih
  | case14 rest s hc => simp [advance, hc, State.abort]
  | case15 rest s hz hc ih => simpa [advance, hc] using ih
  | case16 rest s hc => simp [advance, hc, State.abort]
  | case17 rest s ih => exact ih
  | case18 rest s ih => exact ih
  | case19 rest s ih => exact ih
  | case20 rest s ih => exact ih
  | case21 rest s hc => simp [advance, hc]
  | case22 rest s hc ih => simpa [advance, hc] using ih
  | case23 rest s hc => simp [advance, hc]
  | case24 rest s hc ih => simpa [advance, hc] using ih
  | case25 rest s hc ih => simpa [advance, hc] using ih
  | case26 rest s hc => simp [advance, hc]
  | case27 rest s ih => exact ih
  | case28 b rest s hc ih => simpa [advance, hc] using ih
  | case29 b rest s hc h' => simp [advance, hc, h', State.abort]
  | case30 b rest s hc h' => simp [advance, hc, h']
  | case31 rest s ih => exact ih

/-- Nor in the outcome of a primitive. -/
theorem perform_host (r : Reply) (s : State) (h : List HostOp) :
    perform r { s with host := h } = { perform r s with host := h } := by
  unfold perform
  dsimp only
  split
  · next p l rest ok _ =>
    unfold afterPin
    split
    · cases p with
      | cs => exact advance_host rest ((s.log (.pin .cs l true)).setShadow .cs l) h
      | reset => exact advance_host rest ((s.log (.pin .reset l true)).setShadow .reset l) h
    · rfl
  · next a rest x _ =>
    unfold afterRecv
    split
    · next q =>
      exact advance_host rest { s.log (.xfer (readHeader a) 0x00 (some q)) with work := { s.work with rx := q.2 } } h
    · rfl
  · next a src rest x _ =>
    have hb : State.byteOf { s with host := h } src = s.byteOf src := by
      rcases src with v | ⟨m, v⟩ | _ | _ | _ | _ <;> (try cases v) <;> rfl
    rw [hb]
    unfold afterSend
    split
    · next q => exact advance_host rest (s.log (.xfer (writeHeader a) (s.byteOf src) (some q))) h
    · rfl
  · next n rest _ => exact advance_host rest (s.log (.delay n)) h
  · rfl

/-- Nor in a run of them. -/
theorem run_host (n : Nat) (s : State) (h : List HostOp) : run n { s with host := h } = { run n s with host := h } := by
  induction n generalizing s with
  | zero => rfl
  | succ n ih =>
    simp only [run]
    split
    · rfl
    · next r rs _ =>
      split
      · rw [← ih]
        exact congrArg (run n) (perform_host r { s with replies := rs } h)
      · rfl

end Sys2Proof.Machine
end

