-- ==== Sys2Proof/Laws/PerInstr.lean ====
section
/-! SUPPORT. The family TableRow: every instruction's encoding lies in its own row of spec/opcode_table.json. -/

namespace Sys2Proof.Laws

/-- The encoding is a command word that agrees with the row's `match` in the bits of its `mask`. -/
def matchesCommand (i : Instr) (mask pattern : Word) : Prop := ∃ w, encode i = .command w ∧ w &&& mask = pattern

/-- The same for a bus frame, whose row gives a pattern of fixed bits (30_encoding.md R70). -/
def matchesFrame (i : Instr) (mask pattern : FrameWord) : Prop := ∃ f, encode i = .frame f ∧ f &&& mask = pattern

/-- The encoding of `i` lies in the row of its mnemonic: masks and patterns as spec/opcode_table.json gives them, at the widths
the table has. -/
def TableRow.Statement (i : Instr) : Prop :=
  WellFormed defaultWidths i →
  match i with
  | .rdReg _ => matchesCommand i 0xFFFFFF80 0x01000000
  | .wrReg _ _ => matchesCommand i 0xFFFF8000 0x02000000
  | .init _ => matchesCommand i 0xFFFFFC00 0x10000000
  | .setMode _ => matchesCommand i 0xFFFFFFF8 0x20000000
  | .setHeader _ => matchesCommand i 0xFFFFFFFE 0x21000000
  | .setFrequency _ => matchesCommand i 0xFFFFFC00 0x22000000
  | .setSf _ => matchesCommand i 0xFFFFFF00 0x23000000
  | .setBw _ => matchesCommand i 0xFF000000 0x24000000
  | .setCr _ => matchesCommand i 0xFFFFFF00 0x25000000
  | .setPreamble _ => matchesCommand i 0xFFFF0000 0x26000000
  | .setCrc _ => matchesCommand i 0xFFFFFFFE 0x27000000
  | .setInvertIq _ => matchesCommand i 0xFFFFFFFE 0x28000000
  | .setTxPower _ => matchesCommand i 0xFFFFFF00 0x29000000
  | .setOcp _ => matchesCommand i 0xFFFFFF00 0x2A000000
  | .setDio0TxDone => matchesCommand i 0xFFFFFFFF 0x2B000000
  | .getSf => matchesCommand i 0xFFFFFFFF 0x30000000
  | .getBw => matchesCommand i 0xFFFFFFFF 0x31000000
  | .getRssi => matchesCommand i 0xFFFFFFFF 0x32000000
  | .getSnr => matchesCommand i 0xFFFFFFFF 0x33000000
  | .getFreqError => matchesCommand i 0xFFFFFFFF 0x34000000
  | .transmit => matchesCommand i 0xFFFFFFFF 0x40000000
  | .pollIrq => matchesCommand i 0xFFFFFFFF 0x41000000
  | .pollIrqT _ => matchesCommand i 0xFF000000 0x42000000
  | .readPacket => matchesCommand i 0xFFFFFFFF 0x43000000
  | .irqFlags => matchesCommand i 0xFFFFFFFF 0x44000000
  | .clearIrq => matchesCommand i 0xFFFFFFFF 0x45000000
  | .isPacketReady => matchesCommand i 0xFFFFFFFF 0x46000000
  | .busReadFrame _ => matchesFrame i 0x80FF 0x0000
  | .busWriteFrame _ _ => matchesFrame i 0x8000 0x8000

/-- An operand of `n` bits lies below bit `n`, so the bits above it are the opcode's. -/
theorem field_masked (n : Nat) (op : Byte) (x : BitVec n) (hn : n ≤ 24) :
    (op ++ x.setWidth 24) &&& ~~~((BitVec.allOnes n).setWidth 32) = op ++ 0#24 := by
  apply BitVec.eq_of_getLsbD_eq
  intro i hi
  simp only [BitVec.getLsbD_and, BitVec.getLsbD_append, BitVec.getLsbD_not, BitVec.getLsbD_setWidth, BitVec.getLsbD_allOnes,
    BitVec.getLsbD_zero]
  by_cases h : i < n
  · have h24 : i < 24 := by omega
    simp [h, h24, hi]
  · have hx : x.getLsbD i = false := BitVec.getLsbD_of_ge x i (by omega)
    by_cases h24 : i < 24 <;> simp [h, h24, hi, hx]

/-- A command with an operand field of `n` bits. -/
theorem matches_of_field {i : Instr} {mask pattern : Word} (n : Nat) (op : Byte) (x : BitVec n)
    (h : n ≤ 24 ∧ mask = ~~~((BitVec.allOnes n).setWidth 32) ∧ pattern = op ++ 0#24)
    (he : encode i = commandWord op (x.setWidth 24) := by rfl) : matchesCommand i mask pattern :=
  ⟨_, he, by rw [h.2.1, h.2.2]; exact field_masked n op x h.1⟩

/-- A command whose operand fills the 24 bits. -/
theorem matches_of_wide {i : Instr} {pattern : Word} (op : Byte) (x : BitVec 24) (h : pattern = op ++ 0#24 := by rfl)
    (he : encode i = commandWord op x := by rfl) : matchesCommand i 0xFF000000 pattern :=
  ⟨_, he, by rw [h]; simpa using field_masked 24 op x (Nat.le_refl _)⟩

/-- A command whose operand of the 24-bit field stays below bit `n`. -/
theorem matches_of_bounded {i : Instr} {mask pattern : Word} (n : Nat) (op : Byte) (x : BitVec 24) (hx : x.toNat < 2 ^ n)
    (h : n ≤ 24 ∧ mask = ~~~((BitVec.allOnes n).setWidth 32) ∧ pattern = op ++ 0#24)
    (he : encode i = commandWord op x := by rfl) : matchesCommand i mask pattern := by
  refine matches_of_field n op (x.setWidth n) h (he.trans ?_)
  congr 1
  apply BitVec.eq_of_toNat_eq
  simp only [BitVec.toNat_setWidth]
  rw [Nat.mod_eq_of_lt hx, Nat.mod_eq_of_lt x.isLt]

theorem TableRow.rdReg (a : RegAddr) : TableRow.Statement (.rdReg a) := fun _ =>
  matches_of_field 7 0x01 a (by decide)

theorem TableRow.wrReg (a : RegAddr) (v : Byte) : TableRow.Statement (.wrReg a v) := fun _ =>
  matches_of_field 15 0x02 (a ++ v) (by decide)

theorem TableRow.init (f : BitVec 24) : TableRow.Statement (.init f) := fun h =>
  matches_of_bounded 10 0x10 f (of_decide_eq_true h) (by decide)

theorem TableRow.setMode (m : BitVec 3) : TableRow.Statement (.setMode m) := fun _ =>
  matches_of_field 3 0x20 m (by decide)

theorem TableRow.setHeader (h : BitVec 1) : TableRow.Statement (.setHeader h) := fun _ =>
  matches_of_field 1 0x21 h (by decide)

theorem TableRow.setFrequency (f : BitVec 24) : TableRow.Statement (.setFrequency f) := fun h =>
  matches_of_bounded 10 0x22 f (of_decide_eq_true h) (by decide)

theorem TableRow.setSf (x : Byte) : TableRow.Statement (.setSf x) := fun _ =>
  matches_of_field 8 0x23 x (by decide)

theorem TableRow.setBw (hz : BitVec 24) : TableRow.Statement (.setBw hz) := fun _ =>
  matches_of_wide 0x24 hz

theorem TableRow.setCr (d : Byte) : TableRow.Statement (.setCr d) := fun _ =>
  matches_of_field 8 0x25 d (by decide)

theorem TableRow.setPreamble (len : BitVec 16) : TableRow.Statement (.setPreamble len) := fun _ =>
  matches_of_field 16 0x26 len (by decide)

theorem TableRow.setCrc (e : BitVec 1) : TableRow.Statement (.setCrc e) := fun _ =>
  matches_of_field 1 0x27 e (by decide)

theorem TableRow.setInvertIq (e : BitVec 1) : TableRow.Statement (.setInvertIq e) := fun _ =>
  matches_of_field 1 0x28 e (by decide)

theorem TableRow.setTxPower (p : Byte) : TableRow.Statement (.setTxPower p) := fun _ =>
  matches_of_field 8 0x29 p (by decide)

theorem TableRow.setOcp (ma : Byte) : TableRow.Statement (.setOcp ma) := fun _ =>
  matches_of_field 8 0x2A ma (by decide)

theorem TableRow.setDio0TxDone : TableRow.Statement .setDio0TxDone := fun _ => ⟨_, rfl, rfl⟩

theorem TableRow.getSf : TableRow.Statement .getSf := fun _ => ⟨_, rfl, rfl⟩

theorem TableRow.getBw : TableRow.Statement .getBw := fun _ => ⟨_, rfl, rfl⟩

theorem TableRow.getRssi : TableRow.Statement .getRssi := fun _ => ⟨_, rfl, rfl⟩

theorem TableRow.getSnr : TableRow.Statement .getSnr := fun _ => ⟨_, rfl, rfl⟩

theorem TableRow.getFreqError : TableRow.Statement .getFreqError := fun _ => ⟨_, rfl, rfl⟩

theorem TableRow.transmit : TableRow.Statement .transmit := fun _ => ⟨_, rfl, rfl⟩

theorem TableRow.pollIrq : TableRow.Statement .pollIrq := fun _ => ⟨_, rfl, rfl⟩

theorem TableRow.pollIrqT (n : BitVec 24) : TableRow.Statement (.pollIrqT n) := fun _ =>
  matches_of_wide 0x42 n

theorem TableRow.readPacket : TableRow.Statement .readPacket := fun _ => ⟨_, rfl, rfl⟩

theorem TableRow.irqFlags : TableRow.Statement .irqFlags := fun _ => ⟨_, rfl, rfl⟩

theorem TableRow.clearIrq : TableRow.Statement .clearIrq := fun _ => ⟨_, rfl, rfl⟩

theorem TableRow.isPacketReady : TableRow.Statement .isPacketReady := fun _ => ⟨_, rfl, rfl⟩

theorem TableRow.busReadFrame (a : RegAddr) : TableRow.Statement (.busReadFrame a) := fun _ =>
  ⟨_, rfl, by revert a; decide⟩

theorem TableRow.busWriteFrame (a : RegAddr) (d : Byte) : TableRow.Statement (.busWriteFrame a d) := by
  intro _
  refine ⟨_, rfl, ?_⟩
  apply BitVec.eq_of_getLsbD_eq
  intro i hi
  have h : i = 15 ∨ i ≠ 15 := by omega
  simp only [writeHeader, BitVec.getLsbD_and, BitVec.getLsbD_append]
  rcases h with rfl | h
  · simp
  · interval_cases i <;> simp_all

end Sys2Proof.Laws
end

