-- ==== Sys2Proof/Laws/Step.lean ====
section
/-! SUPPORT. What one instruction and one step can do, said once: the micro-sequence of each instruction, the four ways a
command ends, and the ways a step goes. -/

namespace Sys2Proof.Machine

/-- The micro-sequence of an instruction (files 40 to 44). -/
def microOf (c : BlockConfig) : Instr → List MicroOp
  | .rdReg a => rd a .regT ++ [.ret .regT]
  | .wrReg a v => wrLit a v
  | .init f => initSeq c.chip f
  | .setMode m => match modeOf m with
    | some md => setModeSeq c.chip md
    | none => []
  | .setHeader h => [.setHdr (headerOf h)]
  | .setFrequency f => setFrequencySeq c.chip f
  | .setSf x => setSfSeq c.chip x
  | .setBw hz => setBwSeq c.chip hz
  | .setCr d => fieldWrite c.chip.reg.mc1 c.chip.crMask (.lit (codingField c.chip d))
  | .setPreamble len => fieldWrites (preambleList c.chip len)
  | .setCrc e => fieldWrite c.chip.reg.crcAddr c.chip.crcMask (.lit (crcField c.chip e))
  | .setInvertIq e => fieldWrites (invertIqList c.chip e)
  | .setTxPower p => wrLit c.chip.reg.paConfig (paByte c.chip p)
  | .setOcp ma => wrLit c.chip.reg.ocp (ocpByte c.chip ma)
  | .setDio0TxDone => fieldWrites (dio0List c.chip)
  | .getSf => rd c.chip.reg.mc2 .regT ++ [.ret .spreading]
  | .getBw => readBwHz c.chip ++ [.ret .bandwidth]
  | .getRssi => rd c.chip.reg.pktRssi .regT ++ [.ret .rssi]
  | .getSnr => rd c.chip.reg.pktSnr .regT ++ [.ret .regT]
  | .getFreqError => freqErrorSeq c.chip
  | .transmit => transmitSeq c.chip
  | .pollIrq => pollSeq c.chip
  | .pollIrqT n => pollBoundedSeq c.chip (pollBound c n)
  | .readPacket => readPacketSeq c.chip
  | .irqFlags => rd c.chip.reg.irqFlags .regT ++ [.ret .regT]
  | .clearIrq => clearIrqSeq c.chip
  | .isPacketReady => rd c.chip.reg.irqFlags .regT ++ [.ret .readyBit]
  | .busReadFrame a => rd a .regT
  | .busWriteFrame a d => wrLit a d

/-- The meaning of a command is its acceptance with its micro-sequence. -/
theorem exec_accepts (i : Instr) (s : State) (hc : isCommand i = true) :
    exec i s = if isInit (some i) = true then s.initCommand i (microOf s.cfg i) else s.command i (microOf s.cfg i) := by
  cases i <;> first | rfl | simp [isCommand] at hc

/-- What the meaning of a command can do: it does not run on a busy block; it is illegal; it starts its micro-sequence; or the
block is not ready. -/
theorem exec_command (i : Instr) (s : State) (hc : isCommand i = true) :
    exec i s = if s.busy then .refused .issueWhileBusy
      else if i.wf s.cfg.widths = false then .next (s.reject .illegalCommand)
      else if isInit (some i) = true ∨ s.life = .ready then .next (s.start i (microOf s.cfg i))
      else .next (s.reject .notReady) := by
  rw [exec_accepts i s hc]
  unfold State.initCommand State.command
  cases i.wf s.cfg.widths <;> cases isInit (some i) <;> simp

/-- The meaning of a frame is its transaction. -/
theorem exec_frame (i : Instr) (s : State) (hc : isCommand i = false) :
    exec i s = .next (s.transact (microOf s.cfg i)) := by
  cases i <;> simp_all [isCommand, exec, microOf, execBusReadFrame, execBusWriteFrame]

/-- The step of an idle block: nothing to do, or the host's next operation. -/
theorem step_idle (s : State) (h : s.busy = false) :
    step s = match s.host with
      | [] => .next s
      | op :: rest => hostOp op { s with host := rest } := by
  simp only [step, nextStep]
  split <;> simp_all

/-- The step of a busy block: a read of `BUSY` or `LIFE`, a block reset, or its own next primitive. -/
theorem step_busy (s : State) (h : s.busy = true) :
    step s = match s.host with
      | [] => resume s
      | op :: rest => if allowedBusy op = true then hostOp op { s with host := rest } else resume s := by
  simp only [step, nextStep, h, Bool.true_and, if_true]
  rcases hh : s.host with _ | ⟨op, rest⟩
  · rfl
  · cases hop : allowedBusy op <;> simp [hop]

/-- While the host waits, a busy block goes on by its next primitive. -/
theorem step_of_hostWaits (s : State) (hb : s.busy = true) (hw : s.HostWaits) : step s = resume s := by
  rw [step_busy s hb]
  rcases hh : s.host with _ | ⟨op, rest⟩
  · rfl
  · obtain ⟨h1, h2, h3, h4⟩ := hw op rest hh
    rcases op with _ | _ | _ | r | _ | _ | _ <;> (try cases r) <;> simp_all [allowedBusy]

/-- A frame word decodes to no host command. -/
theorem isCommand_of_decodeFrame {f : FrameWord} {i : Instr} (h : decodeFrame f = .ok i) : isCommand i = false := by
  unfold decodeFrame at h
  split at h
  · cases h; rfl
  · split at h <;> cases h
    rfl

/-- What the host does next has no part in the outcome of a pin operation. -/
theorem performPin_host (s : State) (h : List HostOp) : performPin { s with host := h } = { performPin s with host := h } := by
  unfold performPin
  dsimp only
  split
  · next ok rs _ => exact perform_host (.pin ok) { s with replies := rs } h
  · exact perform_host (.pin (Config.freePin s.drawn)) { s with drawn := s.drawn + 1 } h

/-- Nor of a transfer. -/
theorem performXfer_host (s : State) (h : List HostOp) : performXfer { s with host := h } = { performXfer s with host := h } := by
  unfold performXfer
  dsimp only
  split
  · next r rs _ => exact perform_host (.xfer r) { s with replies := rs } h
  · exact perform_host (.xfer (Config.freeXfer s.drawn)) { s with drawn := s.drawn + 1 } h

/-- Nor of a delay. -/
theorem performDelay_host (s : State) (h : List HostOp) :
    performDelay { s with host := h } = { performDelay s with host := h } := by
  unfold performDelay
  dsimp only
  split
  · next rs _ => exact perform_host .delay { s with replies := rs } h
  · exact perform_host .delay s h

/-- Where a step of the running command answers a next state, it answers the same with any host list. -/
theorem resume_host {s t : State} (h : List HostOp) (he : resume s = .next t) :
    resume { s with host := h } = .next { t with host := h } := by
  unfold resume at he ⊢
  dsimp only
  split at he
  · cases he; rw [performPin_host]
  · cases he; rw [performXfer_host]
  · cases he; rw [performXfer_host]
  · cases he; rw [performDelay_host]
  · next f rest _ =>
    split at he
    · next i hd =>
      have hc : isCommand i = false := isCommand_of_decodeFrame hd
      rw [exec_frame i _ hc] at he ⊢
      cases he
      exact congrArg _ ((congrArg (run 3) (advance_host _ { s with upc := rest, busy := true } h)).trans (run_host 3 _ h))
    · cases he
  · cases he
    rw [advance_host]

/-- While the host lets a primitive go by, a busy block does the same with the rest of the host's list. -/
theorem step_of_wait (s : State) (rest : List HostOp) (hb : s.busy = true) (hh : s.host = .wait :: rest) :
    step s = resume { s with host := rest } := by
  rw [step_busy s hb, hh]
  exact if_pos hb

/-- A pin operation with its outcome taken, whichever source it has. -/
theorem performPin_of_outcome {s u : State} {ok : Bool} (h : s.PinOutcome ok u) : performPin s = perform (.pin ok) u := by
  obtain ⟨rs, hr, rfl⟩ | ⟨hn, rfl, rfl⟩ := h
  · simp [performPin, hr]
  · unfold performPin
    split
    · next b rs hr => exact absurd hr (hn b rs)
    · rfl

/-- A transfer with its outcome taken, whichever source it has. -/
theorem performXfer_of_outcome {s u : State} {r : Option (Byte × Byte)} (h : s.XferOutcome r u) :
    performXfer s = perform (.xfer r) u := by
  obtain ⟨rs, hr, rfl⟩ | ⟨hn, rfl, rfl⟩ := h
  · simp [performXfer, hr]
  · unfold performXfer
    split
    · next x rs hr => exact absurd hr (hn x rs)
    · rfl

/-- A delay with its reply taken, if there is one. -/
theorem performDelay_of_outcome {s u : State} (h : s.DelayOutcome u) : performDelay s = perform .delay u := by
  obtain ⟨rs, hr, rfl⟩ | ⟨hn, rfl⟩ := h
  · simp [performDelay, hr]
  · unfold performDelay
    split
    · next rs hr => exact absurd hr (hn rs)
    · rfl

/-- What an outcome's source changes: the replies, or the count of free ones. -/
theorem pinOutcome_frame {s u : State} {ok : Bool} (h : s.PinOutcome ok u) :
    u = { s with replies := u.replies, drawn := u.drawn } := by
  obtain ⟨rs, -, rfl⟩ | ⟨-, -, rfl⟩ := h <;> rfl

/-- The same of a transfer. -/
theorem xferOutcome_frame {s u : State} {r : Option (Byte × Byte)} (h : s.XferOutcome r u) :
    u = { s with replies := u.replies, drawn := u.drawn } := by
  obtain ⟨rs, -, rfl⟩ | ⟨-, -, rfl⟩ := h <;> rfl

/-- The same of a delay. -/
theorem delayOutcome_frame {s u : State} (h : s.DelayOutcome u) : u = { s with replies := u.replies } := by
  obtain ⟨rs, -, rfl⟩ | ⟨-, rfl⟩ := h <;> rfl

end Sys2Proof.Machine
end

