-- ==== Sys2Proof/Machine/Assembler.lean ====
section
/-! DEFINITION. The textual form of commands, the pseudo-instructions and the two directives (30_encoding.md R88, R89), down to
the host operations they stand for; the reading of text is left out (log entry 17). -/

namespace Sys2Proof.Machine

/-- The pseudo-instructions of R89. -/
inductive Pseudo where
  | sleep
  | standby
  | setExplicitHeader
  | setImplicitHeader
  deriving DecidableEq, Repr

/-- "Each expands to exactly one command" (R89). -/
def Pseudo.expand : Pseudo → Instr
  | .sleep => .setMode 0
  | .standby => .setMode 1
  | .setExplicitHeader => .setHeader 0
  | .setImplicitHeader => .setHeader 1

/-- One line of a host program (R88). -/
inductive AsmLine where
  /-- A command. -/
  | command (i : Instr)
  /-- A pseudo-instruction. -/
  | pseudo (p : Pseudo)
  /-- `.tx b0, b1, …`. -/
  | tx (bytes : List Byte)
  /-- `.word w`. -/
  | word (w : Word)
  deriving DecidableEq, Repr

/-- The host writes `TXBUF[i]`, `TXBUF[i+1]`, …. -/
def txWrites : Nat → List Byte → List HostOp
  | _, [] => []
  | i, b :: rest => .writeTx (BitVec.ofNat 8 i) b :: txWrites (i + 1) rest

/-- Issuing a command is issuing its word; a bus frame is no host operation. -/
def issueOf (i : Instr) : List HostOp :=
  match encode i with
  | .command w => [.issue w]
  | .frame _ => []

/-- What a line stands for (R88). -/
def assemble : AsmLine → List HostOp
  | .command i => issueOf i
  | .pseudo p => issueOf p.expand
  | .tx bytes => txWrites 0 bytes ++ [.writeTxLen (BitVec.ofNat 8 bytes.length)]
  | .word w => [.issue w]

/-- The symbolic operand of `SET_MODE` (R88); 5..7 have no symbol. -/
def modeText (m : BitVec 3) : String :=
  match m with
  | 0#3 => "SLEEP"
  | 1#3 => "STANDBY"
  | 2#3 => "TX"
  | 3#3 => "RX_CONTINUOUS"
  | 4#3 => "RX_SINGLE"
  | _ => toString m.toNat

/-- The symbolic operand of `SET_HEADER` (R88). -/
def headerText (h : BitVec 1) : String := if h = 1#1 then "IMPLICIT" else "EXPLICIT"

/-- The symbolic operand of `SET_CRC` and `SET_INVERT_IQ` (R88). -/
def onOffText (e : BitVec 1) : String := if e = 1#1 then "ON" else "OFF"

/-- A command's line: "`MNEMONIC` then operands separated by commas" (R88), with the mnemonics of R76. -/
def asmText : Instr → String
  | .rdReg a => "RD_REG " ++ toString a.toNat
  | .wrReg a v => "WR_REG " ++ toString a.toNat ++ ", " ++ toString v.toNat
  | .init f => "INIT " ++ toString f.toNat
  | .setMode m => "SET_MODE " ++ modeText m
  | .setHeader h => "SET_HEADER " ++ headerText h
  | .setFrequency f => "SET_FREQUENCY " ++ toString f.toNat
  | .setSf x => "SET_SF " ++ toString x.toNat
  | .setBw hz => "SET_BW " ++ toString hz.toNat
  | .setCr d => "SET_CR " ++ toString d.toNat
  | .setPreamble len => "SET_PREAMBLE " ++ toString len.toNat
  | .setCrc e => "SET_CRC " ++ onOffText e
  | .setInvertIq e => "SET_INVERT_IQ " ++ onOffText e
  | .setTxPower p => "SET_TX_POWER " ++ toString p.toNat
  | .setOcp ma => "SET_OCP " ++ toString ma.toNat
  | .setDio0TxDone => "SET_DIO0_TX_DONE"
  | .getSf => "GET_SF"
  | .getBw => "GET_BW"
  | .getRssi => "GET_RSSI"
  | .getSnr => "GET_SNR"
  | .getFreqError => "GET_FREQ_ERROR"
  | .transmit => "TRANSMIT"
  | .pollIrq => "POLL_IRQ"
  | .pollIrqT n => "POLL_IRQ_T " ++ toString n.toNat
  | .readPacket => "READ_PACKET"
  | .irqFlags => "IRQ_FLAGS"
  | .clearIrq => "CLEAR_IRQ"
  | .isPacketReady => "IS_PACKET_READY"
  | .busReadFrame a => "BUS_READ_FRAME " ++ toString a.toNat
  | .busWriteFrame a d => "BUS_WRITE_FRAME " ++ toString a.toNat ++ ", " ++ toString d.toNat

end Sys2Proof.Machine
end

