-- ==== Sys2Proof/Tests/Slice0.lean ====
section
/-! SUPPORT. Tests of single steps against values the spec writes out, the well-formedness smoke test, and for every obligation
with hypotheses a witness that they can be met together. -/

namespace Sys2Proof.Tests

open Sys2Proof.Machine

/-! ### Helpers: the notation of 95_test_vectors.md -/

/-- `RD a -> v`, `WR a <- v` and `Delay(n)`. -/
inductive T where
  | r (a : RegAddr) (v : Byte)
  | w (a : RegAddr) (v : Byte)
  | d (n : Nat)

/-- The replies of the slave. -/
def T.replies : T → List Reply
  | .r _ v => txn (0, v)
  | .w _ _ => txn (0, 0)
  | .d _ => [.delay]

/-- The events, with the frame bytes as 95_test_vectors.md's notation gives them. -/
def T.events : T → List Event
  | .r a v => [.pin .cs .low true, .xfer (BitVec.ofNat 8 a.toNat) 0 (some (0, v)), .pin .cs .high true]
  | .w a v => [.pin .cs .low true, .xfer (BitVec.ofNat 8 (128 + a.toNat)) v (some (0, 0)), .pin .cs .high true]
  | .d n => [.delay n]

/-- A block in Ready, Standby, 915 MHz, with chip-select high: the end of program P1. -/
def ready : State :=
  { State.reset with life := .ready, mode := .standby, freq := 915, csShadow := .high, rstShadow := .high }

/-- The next step runs the command word `w` against a slave that answers as `l` says, does exactly the events of `l`, ends the
command, and leaves what `f` says. -/
def goes (s : State) (w : Nat) (l : List T) (f : State → Bool) : Bool :=
  match step ({ s with replies := l.flatMap T.replies }.withFetchWord 32 w) with
  | .next t => decide (t.trace = s.trace ++ l.flatMap T.events) && !t.busy && decide (t.replies = []) && f t
  | .fault _ => false
  | .refused _ => false

/-- `STATUS` and `RESULT`. -/
def ends (status : Byte) (result : Word) (t : State) : Bool := decide (t.status = status) && decide (t.result = result)

/-- Success without a result. -/
def ok (t : State) : Bool := ends 0x00 0 t

/-- `SetMode` and `ApplyHeader` on a slave whose `A_MC1` holds a byte with a clear header bit, `HDR` = 0. -/
def mode (mc1 m : Byte) : List T := [.r 0x1D mc1, .w 0x1D mc1, .w 0x01 m]

/-! ### Well-formedness and decoding -/

/-- The operand check of 30_encoding.md R75: `SET_MODE` 5..7. -/
theorem test_wf_refuses_mode_5 : WellFormed defaultWidths (.setMode 4) ∧ ¬ WellFormed defaultWidths (.setMode 5) ∧
    ¬ WellFormed defaultWidths (.setMode 7) := by decide

/-- The open widths of 00_scope.md R7: 10 bits for a frequency by default, and 11 and 8 bits where a model chooses them. -/
theorem test_wf_refuses_wide_operands :
    WellFormed defaultWidths (.init 1023) ∧ ¬ WellFormed defaultWidths (.init 1024) ∧
    WellFormed defaultWidths (.setFrequency 1023) ∧ ¬ WellFormed defaultWidths (.setFrequency 1024) ∧
    WellFormed { freqW := 11, timeoutW := 8 } (.init 1024) ∧
    WellFormed { freqW := 11, timeoutW := 8 } (.pollIrqT 255) ∧ ¬ WellFormed { freqW := 11, timeoutW := 8 } (.pollIrqT 256) := by
  decide

/-- The must-be-zero bits follow the open widths (30_encoding.md R74, R76). -/
theorem test_decode_open_widths :
    decodeCommand { freqW := 11, timeoutW := 8 } 0x220007FF = .ok (.setFrequency 2047) ∧
    decodeCommand { freqW := 11, timeoutW := 8 } 0x22000800 = .error .reservedBits ∧
    decodeCommand { freqW := 11, timeoutW := 8 } 0x420000FF = .ok (.pollIrqT 255) ∧
    decodeCommand { freqW := 11, timeoutW := 8 } 0x42000100 = .error .reservedBits := by decide

/-- A word of each command, bit by bit: opcode (30_encoding.md R76), then the operand fields of R74; words of
95_test_vectors.md 3.1. -/
theorem test_decode_access :
    decodeCommand defaultWidths 0b00000001000000000000000001000010 = .ok (.rdReg 0x42) ∧
    decodeCommand defaultWidths 0b00000010000000000011100100110100 = .ok (.wrReg 0x39 0x34) ∧
    decodeCommand defaultWidths 0b00010000000000000000001110010011 = .ok (.init 915) := by decide

theorem test_decode_setters_a :
    decodeCommand defaultWidths 0b00100000000000000000000000000100 = .ok (.setMode 4) ∧
    decodeCommand defaultWidths 0b00100001000000000000000000000001 = .ok (.setHeader 1) ∧
    decodeCommand defaultWidths 0b00100010000000000000001101100100 = .ok (.setFrequency 868) ∧
    decodeCommand defaultWidths 0b00100011000000000000000000001100 = .ok (.setSf 12) ∧
    decodeCommand defaultWidths 0b00100100000000011110100001001000 = .ok (.setBw 125000) ∧
    decodeCommand defaultWidths 0b00100101000000000000000000001000 = .ok (.setCr 8) := by decide

theorem test_decode_setters_b :
    decodeCommand defaultWidths 0b00100110000000001111111111111111 = .ok (.setPreamble 65535) ∧
    decodeCommand defaultWidths 0b00100111000000000000000000000001 = .ok (.setCrc 1) ∧
    decodeCommand defaultWidths 0b00101000000000000000000000000001 = .ok (.setInvertIq 1) ∧
    decodeCommand defaultWidths 0b00101001000000000000000000010001 = .ok (.setTxPower 17) ∧
    decodeCommand defaultWidths 0b00101010000000000000000001100100 = .ok (.setOcp 100) ∧
    decodeCommand defaultWidths 0b00101011000000000000000000000000 = .ok .setDio0TxDone := by decide

theorem test_decode_getters :
    decodeCommand defaultWidths 0b00110000000000000000000000000000 = .ok .getSf ∧
    decodeCommand defaultWidths 0b00110001000000000000000000000000 = .ok .getBw ∧
    decodeCommand defaultWidths 0b00110010000000000000000000000000 = .ok .getRssi ∧
    decodeCommand defaultWidths 0b00110011000000000000000000000000 = .ok .getSnr ∧
    decodeCommand defaultWidths 0b00110100000000000000000000000000 = .ok .getFreqError := by decide

theorem test_decode_packet :
    decodeCommand defaultWidths 0b01000000000000000000000000000000 = .ok .transmit ∧
    decodeCommand defaultWidths 0b01000001000000000000000000000000 = .ok .pollIrq ∧
    decodeCommand defaultWidths 0b01000010111111111111111111111111 = .ok (.pollIrqT 16777215) ∧
    decodeCommand defaultWidths 0b01000011000000000000000000000000 = .ok .readPacket ∧
    decodeCommand defaultWidths 0b01000100000000000000000000000000 = .ok .irqFlags ∧
    decodeCommand defaultWidths 0b01000101000000000000000000000000 = .ok .clearIrq ∧
    decodeCommand defaultWidths 0b01000110000000000000000000000000 = .ok .isPacketReady := by decide

/-- Frames of 95_test_vectors.md 3.1: `RD(0x42)` is 42 00, `WR(0x06, 0xE4)` is 86 E4, and 42 01 is no frame (R71). -/
theorem test_decode_frames :
    decodeFrame 0b0100001000000000 = .ok (.busReadFrame 0x42) ∧
    decodeFrame 0b1000011011100100 = .ok (.busWriteFrame 0x06 0xE4) ∧
    decodeFrame 0b0100001000000001 = .error .readFrameData := by decide

/-- The refused words of 95_test_vectors.md 3.1. -/
theorem test_decode_refuses :
    decodeCommand defaultWidths 0x00000000 = .error .unassignedOpcode ∧ decodeCommand defaultWidths 0x03000000 = .error .unassignedOpcode ∧
    decodeCommand defaultWidths 0xFF000000 = .error .unassignedOpcode ∧ decodeCommand defaultWidths 0x01000080 = .error .reservedBits ∧
    decodeCommand defaultWidths 0x02008000 = .error .reservedBits ∧ decodeCommand defaultWidths 0x10000400 = .error .reservedBits ∧
    decodeCommand defaultWidths 0x20000005 = .error .modeOutOfRange ∧ decodeCommand defaultWidths 0x20000008 = .error .reservedBits ∧
    decodeCommand defaultWidths 0x40000001 = .error .reservedBits ∧ decodeCommand defaultWidths 0x24FFFFFF = .ok (.setBw 0xFFFFFF) := by decide

/-- The encoder writes the words of 95_test_vectors.md 3.1. -/
theorem test_encode :
    encode (.wrReg 0x7F 0xFF) = .command 0x02007FFF ∧ encode (.setBw 7800) = .command 0x24001E78 ∧
    encode (.pollIrqT 5) = .command 0x42000005 ∧ encode (.busReadFrame 0x7F) = .frame 0x7F00 ∧
    encode (.busWriteFrame 0x12 0x50) = .frame 0x9250 := by decide

/-- The table words of the two frame rows, numbered as spec/opcode_table.json numbers them. -/
theorem test_decode_table_word :
    decodeTableWord 16 0x8181 = some (.busWriteFrame 0x01 0x81) ∧ decodeTableWord 16 0x4200 = some (.busReadFrame 0x42) ∧
    decodeTableWord 32 0x23000007 = some (.setSf 7) ∧ decodeTableWord 32 0x20000005 = none := by decide

/-! ### Register access (95_test_vectors.md 3.2, 3.7) -/

theorem test_rd_reg : goes ready 0x01000042 [.r 0x42 0x12] (ends 0x00 0x12) = true := by decide

/-- `PinSet(cs,high)` fails: the byte is dropped. -/
theorem test_rd_reg_fault :
    (match exec (.rdReg 0x42) { ready with replies := [.pin true, .xfer (some (0, 0x12)), .pin false] } with
      | .next t => decide (t.status = 0x01 ∧ t.result = 0 ∧ t.csShadow = .unknown ∧ t.life = .ready ∧ t.trace.length = 3)
      | _ => false) = true := by decide

/-- The mode register written with `WR_REG` leaves `MODE` stale (10_state.md R23). -/
theorem test_wr_reg : goes ready 0x02000180 [.w 0x01 0x80] (fun t => ok t && decide (t.mode = .standby)) = true := by decide

theorem test_bus_frames :
    (match step ({ ready with replies := txn (0, 0x12) }.withFetchWord 16 0x4200) with
      | .next t => decide (t.trace = (T.r 0x42 0x12).events ∧ t.work.t = 0x12 ∧ t.busy = false)
      | _ => false) = true ∧
    (match step ({ ready with replies := txn (0, 0) }.withFetchWord 16 0x86E4) with
      | .next t => decide (t.trace = (T.w 0x06 0xE4).events ∧ t.status = 0x00 ∧ t.busy = false)
      | _ => false) = true := by decide

/-! ### Initialisation (95_test_vectors.md 3.3, P1) -/

/-- The 15 transactions of P1. -/
def p1 : List T := .r 0x42 0x12 :: (mode 0x72 0x80 ++ (.w 0x06 0xE4 :: .w 0x07 0xC0 :: .w 0x08 0x00 :: .w 0x0E 0x00 ::
  .w 0x0F 0x00 :: .r 0x0C 0x20 :: .w 0x0C 0x23 :: .w 0x26 0x04 :: mode 0x72 0x81))

/-- P1: 50 events, Ready, Standby, 915 MHz. -/
theorem test_init :
    (match exec (.init 915) { State.reset with replies := pulseScript ++ (p1.flatMap T.replies ++ [.pin true]) } with
      | .next t => decide (t.trace = .pin .reset .low true :: .delay 10 :: .pin .reset .high true :: .delay 10 ::
          (p1.flatMap T.events ++ [.pin .cs .high true])) &&
          decide (t.trace.length = 50) && ok t && decide (t.life = .ready ∧ t.mode = .standby ∧ t.freq = 915)
      | _ => false) = true := by decide

/-- Version 0x22: Failed, the byte in `RESULT`. -/
theorem test_init_version :
    (match exec (.init 433) { State.reset with replies := pulseScript ++ txn (0, 0x22) } with
      | .next t => ends 0x04 0x22 t && decide (t.life = .failed ∧ t.csShadow = .high ∧ t.trace.length = 7)
      | _ => false) = true := by decide

/-! ### Setters (95_test_vectors.md 3.4) -/

/-- `HDR` = 1 and `A_MC1` = 0x88. -/
theorem test_set_mode : goes { ready with hdr := .implicit } 0x20000000 [.r 0x1D 0x88, .w 0x1D 0x89, .w 0x01 0x80]
    (fun t => ok t && decide (t.mode = .sleep)) = true := by decide

/-- `IllegalCommand` is tested before `NotReady`. -/
theorem test_set_mode_illegal_first :
    goes State.reset 0x20000005 [] (ends 0x80 0) = true ∧ goes State.reset 0x20000001 [] (ends 0x81 0) = true := by decide

theorem test_set_header : goes ready 0x21000001 [] (fun t => ok t && decide (t.hdr = .implicit)) = true := by decide

theorem test_set_frequency : goes ready 0x220001B1 [.w 0x06 0x6C, .w 0x07 0x40, .w 0x08 0x00]
    (fun t => ok t && decide (t.freq = 433)) = true := by decide

/-- The `Xfer` of the second write fails: `FREQ` still 915. -/
theorem test_set_frequency_fault :
    (match exec (.setFrequency 868) { ready with replies := txn (0, 0) ++ [.pin true, .xfer none] } with
      | .next t => ends 0x03 0 t && decide (t.freq = 915 ∧ t.csShadow = .unknown)
      | _ => false) = true := by decide

theorem test_set_sf_12 : goes ready 0x2300000C [.w 0x31 0xC3, .w 0x37 0x0A, .r 0x1E 0x70, .w 0x1E 0xC0, .r 0x1D 0x72,
    .r 0x1E 0xC0, .r 0x26 0x04, .w 0x26 0x0C] ok = true := by decide

theorem test_set_sf_3 : goes ready 0x23000003 [.w 0x31 0xC5, .w 0x37 0x0C, .r 0x1E 0x64, .w 0x1E 0x64, .r 0x1D 0x78,
    .r 0x1E 0x64, .r 0x26 0x04, .w 0x26 0x04] ok = true := by decide

theorem test_set_bw : goes ready 0x24001E78 [.r 0x1D 0x98, .w 0x1D 0x08, .r 0x1D 0x08, .r 0x1E 0x94, .r 0x26 0x04,
    .w 0x26 0x0C] ok = true := by decide

/-- 500000 is not in the table: index 9, `BandwidthUnknown`. -/
theorem test_set_bw_unknown : goes ready 0x2407A120 [.r 0x1D 0x78, .w 0x1D 0x98, .r 0x1D 0x98] (ends 0x82 9) = true := by decide

theorem test_set_cr : goes ready 0x25000005 [.r 0x1D 0x7F, .w 0x1D 0x73] ok = true ∧
    goes ready 0x250000FF [.r 0x1D 0x70, .w 0x1D 0x78] ok = true := by decide

theorem test_set_preamble : goes ready 0x26001234 [.w 0x20 0x12, .w 0x21 0x34] ok = true := by decide

theorem test_set_crc : goes ready 0x27000001 [.r 0x1E 0xC0, .w 0x1E 0xC4] ok = true ∧
    goes ready 0x27000000 [.r 0x1E 0x94, .w 0x1E 0x90] ok = true := by decide

theorem test_set_invert_iq : goes ready 0x28000001 [.r 0x33 0x27, .w 0x33 0x67] ok = true ∧
    goes ready 0x28000000 [.r 0x33 0x67, .w 0x33 0x27] ok = true := by decide

theorem test_set_tx_power : goes ready 0x29000000 [.w 0x09 0x80] ok = true ∧ goes ready 0x2900000A [.w 0x09 0x88] ok = true ∧
    goes ready 0x290000FF [.w 0x09 0x8F] ok = true := by decide

theorem test_set_ocp : goes ready 0x2A00002D [.w 0x0B 0x20] ok = true ∧ goes ready 0x2A000078 [.w 0x0B 0x2F] ok = true ∧
    goes ready 0x2A0000F1 [.w 0x0B 0x3B] ok = true := by decide

theorem test_set_dio0 : goes ready 0x2B000000 [.w 0x40 0x40] ok = true := by decide

/-! ### Getters (95_test_vectors.md 3.5) -/

theorem test_get_sf : goes ready 0x30000000 [.r 0x1E 0xC4] (ends 0x00 12) = true := by decide

theorem test_get_bw : goes ready 0x31000000 [.r 0x1D 0x8F] (ends 0x00 250000) = true ∧
    goes ready 0x31000000 [.r 0x1D 0x92] (ends 0x82 9) = true := by decide

theorem test_get_rssi : goes ready 0x32000000 [.r 0x1A 0x64] (ends 0x00 0xFFFFFFC7) = true ∧
    goes ready 0x32000000 [.r 0x1A 0xFF] (ends 0x00 0x62) = true := by decide

theorem test_get_snr : goes ready 0x33000000 [.r 0x19 0xF0] (ends 0x00 0xF0) = true := by decide

theorem test_get_freq_error :
    goes ready 0x34000000 [.r 0x28 0x0F, .r 0x29 0xFF, .r 0x2A 0xFF, .r 0x1D 0x72] (ends 0x00 68719) = true ∧
    goes ready 0x34000000 [.r 0x28 0x07, .r 0x29 0xFF, .r 0x2A 0xFF, .r 0x1D 0x02] (ends 0x00 4288) = true ∧
    goes ready 0x34000000 [.r 0x28 0x00, .r 0x29 0x03, .r 0x2A 0xE8, .r 0x1D 0x98] (ends 0x82 9) = true := by decide

/-! ### Packets (44_packet_io.md's examples, 95_test_vectors.md 3.6) -/

/-- The example of 44_packet_io.md R161: three bytes, 16 transactions. -/
theorem test_transmit :
    goes { ready with txbuf := [(0, 0x48), (1, 0x69), (2, 0x21)], txlen := 3 } 0x40000000
      (mode 0x78 0x81 ++ [.r 0x1D 0x78, .w 0x1D 0x78, .r 0x12 0x00, .w 0x12 0x00, .w 0x0D 0x00, .w 0x22 0x00, .w 0x00 0x03,
        .w 0x00 0x48, .w 0x00 0x69, .w 0x00 0x21] ++ mode 0x78 0x83)
      (fun t => ok t && decide (t.mode = .transmit)) = true := by decide

/-- `TXLEN` = 0: 13 transactions. -/
theorem test_transmit_empty :
    goes ready 0x40000000
      (mode 0x88 0x81 ++ [.r 0x1D 0x88, .w 0x1D 0x88, .r 0x12 0x00, .w 0x12 0x00, .w 0x0D 0x00, .w 0x22 0x00, .w 0x00 0x00] ++
        mode 0x88 0x83) ok = true := by decide

/-- The example of 44_packet_io.md R163. -/
theorem test_poll_irq :
    goes ready 0x41000000 (mode 0x72 0x85 ++ [.r 0x12 0x00, .d 100, .r 0x12 0x00, .d 100, .r 0x12 0x50, .r 0x12 0x50,
      .w 0x12 0x50, .r 0x13 0x14]) (fun t => ends 0x00 20 t && decide (t.mode = .receiveContinuous)) = true := by decide

/-- `n` = 0 times out promptly (95_test_vectors.md E6). -/
theorem test_poll_irq_t_zero : goes ready 0x42000000 (mode 0x72 0x85 ++ [.r 0x12 0x00])
    (fun t => ends 0x05 0 t && decide (t.mode = .receiveContinuous)) = true := by decide

/-- The bit set at the read after the last delay is a success. -/
theorem test_poll_irq_t_last : goes ready 0x42000002 (mode 0x78 0x85 ++ [.r 0x12 0x00, .d 1, .r 0x12 0x00, .d 1, .r 0x12 0x40,
    .r 0x12 0x40, .w 0x12 0x40, .r 0x13 0x05]) (ends 0x00 5) = true := by decide

/-- The example of 44_packet_io.md R165. -/
theorem test_read_packet : goes ready 0x43000000 [.r 0x12 0x00, .w 0x12 0x00, .r 0x13 0x03, .r 0x10 0x10, .w 0x0D 0x10,
    .r 0x00 0xAA, .r 0x00 0xBB, .r 0x00 0xCC, .w 0x0D 0x00]
    (fun t => ends 0x00 3 t && decide (t.rxlen = 3 ∧ t.rxbuf = [(0, 0xAA), (1, 0xBB), (2, 0xCC)])) = true := by decide

/-- A fault at the second FIFO read: one byte in `RXBUF`, `RXLEN` as before (95_test_vectors.md 3.7). -/
theorem test_read_packet_fault :
    (match exec .readPacket { ready with
        rxlen := 9
        replies := ([T.r 0x12 0x00, T.w 0x12 0x00, T.r 0x13 0x03, T.r 0x10 0x10, T.w 0x0D 0x10, T.r 0x00 0xAA].flatMap T.replies) ++
          [.pin true, .xfer (some (0, 0xBB)), .pin false] } with
      | .next t => ends 0x01 0 t && decide (t.rxlen = 9 ∧ t.rxbuf = [(0, 0xAA)])
      | _ => false) = true := by decide

theorem test_irq_flags : goes ready 0x44000000 [.r 0x12 0x08] (ends 0x00 8) = true := by decide

theorem test_clear_irq : goes ready 0x45000000 [.r 0x12 0x48, .w 0x12 0x48] ok = true := by decide

theorem test_is_packet_ready : goes ready 0x46000000 [.r 0x12 0x50] (ends 0x00 1) = true ∧
    goes ready 0x46000000 [.r 0x12 0xBF] (ends 0x00 0) = true := by decide

/-! ### Helpers: states of a running or hosted block -/

/-- A ready block with these replies at hand. -/
def given (rs : List Reply) : State := { ready with replies := rs }

/-- A busy block in the middle of `RD_REG 0x42`, at the primitive `op`, with these replies at hand. -/
def running (op : MicroOp) (rs : List Reply) : State :=
  { given rs with busy := true, latch := some (.rdReg 0x42), upc := [op, .take .regT, .ret .regT] }

/-- The same with the host waiting to issue a command. -/
def waiting (op : MicroOp) (rs : List Reply) : State := { running op rs with host := [.issue 0x30000000] }

/-- Issuing is nothing a busy block admits. -/
theorem waiting_hostWaits (op : MicroOp) (rs : List Reply) : (waiting op rs).HostWaits := by
  intro o rest h
  obtain ⟨rfl, -⟩ := List.cons.inj h
  exact ⟨nofun, nofun, nofun, nofun⟩

/-- An idle ready block whose host does `op` next. -/
def hosting (op : HostOp) : State := { ready with host := [op] }

/-- Replies of the slave, by the second byte. -/
def bytes (l : List Byte) : List (Byte × Byte) := l.map fun b => (0, b)

/-! ### Primitive boundaries (93_implementation_defined.md U21, 20_memory.md R42) -/

/-- A block reset lands before a delay that stands next: no event more, the command abandoned. -/
theorem test_block_reset_before_delay :
    (match step { running (.delay 10) [] with host := [.blockReset], trace := [.pin .reset .low true] } with
      | .next t => decide (t.busy = false ∧ t.life = .poweredUnknown ∧ t.trace = [.pin .reset .low true])
      | _ => false) = true := by decide

/-- A delay is one step and one event, and the next primitive waits for the step after it. -/
theorem test_delay_is_one_step :
    (match step { running (.delay 10) [] with upc := [.delay 10, .pin .reset .high] } with
      | .next t => decide (t.busy = true ∧ t.trace = [.delay 10] ∧ t.upc = [.pin .reset .high])
      | _ => false) = true := by decide

/-- The boundary after the last primitive of `RD_REG`, reached by letting it go by: a host that polled `BUSY` as 1 before it reads
0 next (70_reset_and_hazards.md R221). -/
theorem test_wait_lets_last_primitive_go_by :
    (match step { running (.pin .cs .high) [.pin true] with host := [.wait, .readReg .busy] } with
      | .next t => decide (t.busy = false ∧ t.host = [.readReg .busy] ∧ t.readReg .busy = 0)
      | _ => false) = true := by decide

/-! ### Witnesses: the hypotheses of every obligation can be met together, clause by clause -/

theorem witness_DecodeOfEncode : WellFormed defaultWidths (.setMode 4) ∧ WellFormed defaultWidths (.init 1023) ∧
    WellFormed { freqW := 24, timeoutW := 0 } (.setFrequency 0xFFFFFF) ∧ WellFormed defaultWidths (.busWriteFrame 0x7F 0xFF) := by
  decide

theorem witness_EncodeOfDecode : decode defaultWidths (.command 0x42FFFFFF) = .ok (.pollIrqT 0xFFFFFF) ∧
    decode { freqW := 24, timeoutW := 0 } (.command 0x10FFFFFF) = .ok (.init 0xFFFFFF) ∧
    decode defaultWidths (.frame 0xFFFF) = .ok (.busWriteFrame 0x7F 0xFF) := by decide

theorem witness_StepRunsIssuedCommand : (hosting (.issue 0x30000000)).busy = false ∧
    (hosting (.issue 0x30000000)).host = .issue 0x30000000 :: [] ∧
    decodeCommand (hosting (.issue 0x30000000)).cfg.widths 0x30000000 = .ok .getSf := by decide

theorem witness_StepRunsFrameWord : (running (.frame 0x4200) []).busy = true ∧ (running (.frame 0x4200) []).host = [] ∧
    (running (.frame 0x4200) []).upc = .frame 0x4200 :: [.take .regT, .ret .regT] ∧
    decodeFrame 0x4200 = .ok (.busReadFrame 0x42) := by decide

/-- The five clauses: an unassigned opcode, a reserved bit, `SET_MODE` 5, `NotReady`, and acceptance in Ready and of `INIT` in
any state, each with its word at a boundary of the field. -/
theorem witness_AcceptanceTestsInOrder :
    ready.busy = false ∧ mbzOf ready.cfg.widths ((0x00000000 : Word).extractLsb' 24 8) = none ∧
    (mbzOf ready.cfg.widths ((0x01000080 : Word).extractLsb' 24 8) = some 0x00FFFF80 ∧ (0x01000080 : Word) &&& 0x00FFFF80 ≠ 0) ∧
    (mbzOf ready.cfg.widths ((0x20000005 : Word).extractLsb' 24 8) = some 0x00FFFFF8 ∧ (0x20000005 : Word) &&& 0x00FFFFF8 = 0 ∧
      (0x20000005 : Word).extractLsb' 24 8 = 0x20 ∧ 4 < ((0x20000005 : Word).extractLsb' 0 3).toNat) ∧
    (mbzOf ready.cfg.widths ((0x20000004 : Word).extractLsb' 24 8) = some 0x00FFFFF8 ∧ (0x20000004 : Word) &&& 0x00FFFFF8 = 0 ∧
      ((0x20000004 : Word).extractLsb' 0 3).toNat ≤ 4 ∧ (0x20000004 : Word).extractLsb' 24 8 ≠ 0x10 ∧
      State.reset.life ≠ .ready ∧ ready.life = .ready) ∧
    (mbzOf ready.cfg.widths ((0x100003FF : Word).extractLsb' 24 8) = some 0x00FFFC00 ∧ (0x100003FF : Word) &&& 0x00FFFC00 = 0 ∧
      (0x100003FF : Word).extractLsb' 24 8 ≠ 0x20 ∧ (0x100003FF : Word).extractLsb' 24 8 = 0x10) := by decide

theorem witness_NotReadyChangesNothingElse : WellFormed State.reset.cfg.widths (.setMode 4) ∧
    WellFormed State.reset.cfg.widths (.setFrequency 1023) ∧ isCommand (.setMode 4) = true ∧
    isInit (some (.setMode 4)) = false ∧ State.reset.busy = false ∧ State.reset.life ≠ .ready := by decide

/-- A command applied, a host operation that waits, and one that lets a primitive go by, each at a busy block. -/
theorem witness_BusyBlockAcceptsNothing :
    (isCommand .getSf = true ∧ (running (.pin .cs .high) []).busy = true) ∧
    (∃ t, step { running (.pin .cs .high) [.pin true] with host := [.issue 0x30000000] } = .next t ∧
      t.host = [.issue 0x30000000]) ∧
    ({ running (.pin .cs .high) [.pin true] with host := [.wait] } : State).host = .wait :: [] ∧
    ∃ t, step { running (.pin .cs .high) [.pin true] with host := [] } = .next t ∧ t.busy = false :=
  ⟨by decide, ⟨_, rfl, rfl⟩, rfl, _, rfl, rfl⟩

theorem witness_ReadTransaction :
    (given (txn (0, 0x12))).replies = txn (0, 0x12) ++ [] ∧ (given [.pin false]).replies = .pin false :: [] ∧
    (given [.pin true, .xfer none]).replies = .pin true :: .xfer none :: [] ∧
    (given [.pin true, .xfer (some (0, 0x12)), .pin false]).replies =
      .pin true :: .xfer (some (0, 0x12)) :: .pin false :: [] := by decide

theorem witness_WriteTransaction :
    (∃ t, exec (.busWriteFrame 0x7F 0xFF) (given (txn (0, 0))) = .next t ∧ t.trace.length = 3) ∧
    (∃ t, exec (.busWriteFrame 0x7F 0xFF) (given [.pin true, .xfer none]) = .next t ∧ t.status = 0x03) :=
  ⟨⟨_, rfl, rfl⟩, _, rfl, rfl⟩

theorem witness_FieldWriteKeepsOtherBits :
    (given (txn (0, 0) ++ [])).replies = txn (0, 0) ++ [] ∧ (0x0E : Byte) ≠ 0xFF#8 ∧
    (given (txn (0, 0x72) ++ (txn (0, 0) ++ []))).replies = txn (0, 0x72) ++ (txn (0, 0) ++ []) := by decide

/-- A busy block whose host waits with a command; the outcome from the reply at hand, and one drawn because there is none. -/
theorem witness_FailingPrimitiveAborts :
    (waiting (.pin .cs .high) [.pin false]).busy = true ∧ (waiting (.pin .cs .high) [.pin false]).HostWaits ∧
    (waiting (.pin .cs .high) [.pin false]).upc = .pin .cs .high :: [.take .regT, .ret .regT] ∧
    (waiting (.pin .cs .high) [.pin false]).PinOutcome false (waiting (.pin .cs .high) []) ∧
    (waiting (.pin .reset .low) [.pin false]).upc = .pin .reset .low :: [.take .regT, .ret .regT] ∧
    (waiting (.pin .reset .low) [.pin false]).PinOutcome false (waiting (.pin .reset .low) []) ∧
    (waiting (.recv 0x42) [.xfer none]).upc = .recv 0x42 :: [.take .regT, .ret .regT] ∧
    (waiting (.recv 0x42) [.xfer none]).XferOutcome none (waiting (.recv 0x42) []) ∧
    (waiting (.send 0x00 .regN) [.xfer none]).upc = .send 0x00 .regN :: [.take .regT, .ret .regT] ∧
    (waiting (.send 0x00 .regN) [.xfer none]).XferOutcome none (waiting (.send 0x00 .regN) []) ∧
    (∀ n, Config.freePin n = false →
      ({ waiting (.pin .cs .high) [] with drawn := n }).PinOutcome false { waiting (.pin .cs .high) [] with drawn := n + 1 }) ∧
    (∀ n, Config.freeXfer n = none →
      ({ waiting (.recv 0x42) [] with drawn := n }).XferOutcome none { waiting (.recv 0x42) [] with drawn := n + 1 }) :=
  ⟨rfl, waiting_hostWaits _ _, rfl, .inl ⟨[], rfl, rfl⟩, rfl, .inl ⟨[], rfl, rfl⟩, rfl, .inl ⟨[], rfl, rfl⟩, rfl,
    .inl ⟨[], rfl, rfl⟩, fun _ h => .inr ⟨fun _ _ => nofun, h.symm, rfl⟩, fun _ h => .inr ⟨fun _ _ => nofun, h.symm, rfl⟩⟩

/-- Each clause with an outcome at hand and with a drawn one; the delay with a reply, and without. -/
theorem witness_PrimitiveStepGoesOnOrAborts :
    (waiting (.pin .cs .low) []).busy = true ∧ (waiting (.pin .cs .low) []).HostWaits ∧
    (waiting (.pin .cs .low) []).upc = .pin .cs .low :: [.take .regT, .ret .regT] ∧
    (waiting (.pin .cs .low) [.pin true]).PinOutcome true (waiting (.pin .cs .low) []) ∧
    (waiting (.pin .cs .low) []).PinOutcome (Config.freePin 0) { waiting (.pin .cs .low) [] with drawn := 1 } ∧
    (waiting (.pin .reset .high) [.delay]).PinOutcome (Config.freePin 0) { waiting (.pin .reset .high) [.delay] with drawn := 1 } ∧
    (waiting (.recv 0x7F) [.xfer (some (0, 1))]).XferOutcome (some (0, 1)) (waiting (.recv 0x7F) []) ∧
    (waiting (.recv 0x7F) [.pin true]).XferOutcome (Config.freeXfer 0) { waiting (.recv 0x7F) [.pin true] with drawn := 1 } ∧
    (waiting (.send 0x7F .regN) []).XferOutcome (Config.freeXfer 0) { waiting (.send 0x7F .regN) [] with drawn := 1 } ∧
    (waiting (.delay 100) []).upc = .delay 100 :: [.take .regT, .ret .regT] ∧
    (waiting (.delay 100) [.delay]).DelayOutcome (waiting (.delay 100) []) ∧
    (waiting (.delay 100) [.pin true]).DelayOutcome (waiting (.delay 100) [.pin true]) :=
  ⟨rfl, waiting_hostWaits _ _, rfl, .inl ⟨[], rfl, rfl⟩, .inr ⟨fun _ _ => nofun, rfl, rfl⟩, .inr ⟨fun _ _ => nofun, rfl, rfl⟩,
    .inl ⟨[], rfl, rfl⟩, .inr ⟨fun _ _ => nofun, rfl, rfl⟩, .inr ⟨fun _ _ => nofun, rfl, rfl⟩, rfl, .inl ⟨[], rfl, rfl⟩,
    .inr ⟨fun _ => nofun, rfl⟩⟩

theorem witness_StatusStaysProduced : ready.status ∈ producedCodes ∧
    ∃ t, step (hosting (.issue 0x03000000)) = .next t ∧ t.status = 0x80 := ⟨by decide, _, rfl, rfl⟩

theorem witness_StatusWrittenOnlyAtTheEnd :
    (∃ t, exec (.rdReg 0x42) (given [.pin true]) = .next t ∧ t.busy = true) ∧
    (running (.recv 0x42) [.xfer (some (0, 1))]).busy = true ∧ (running (.recv 0x42) [.xfer (some (0, 1))]).host = [] ∧
    ∃ t, step { running (.pin .cs .low) [.pin true] with upc := [.pin .cs .low, .recv 0x42] } = .next t ∧ t.busy = true :=
  ⟨⟨_, rfl, rfl⟩, by decide, by decide, _, rfl, rfl⟩

theorem witness_StepKeepsInvariant : (running (.pin .cs .high) [.pin true]).Inv ∧
    ∃ t, step (running (.pin .cs .high) [.pin true]) = .next t ∧ t.Inv := ⟨by decide, _, rfl, by decide⟩

theorem witness_StepAlwaysAnswers : (hosting (.writeTx 254 0)).Inv ∧ (hosting (.readBuf .rx 254)).Inv ∧
    (hosting (.writeTx 254 0)).host = .writeTx 254 0 :: [] ∧ (254 : Byte).toNat < 255 := by decide

theorem witness_BlockResetAbandonsCommand :
    ({ running (.recv 0x42) [] with host := [.blockReset] } : State).host = .blockReset :: [] := by decide

theorem witness_RdRegDeliversByte : (given (script (bytes [0x12]))).Ready ∧
    (given (script (bytes [0x12]))).replies = script [(0, 0x12)] ++ [] := by decide

theorem witness_WrRegUpdatesNoCache : (given (script (bytes [0]))).Ready ∧
    (given (script (bytes [0]))).replies = script [(0, 0)] ++ [] := by decide

theorem witness_InitConfiguresChip : ∃ (s : State) (p : Byte × Byte) (ps : List (Byte × Byte)), s.Idle ∧
    (915 : BitVec 24).toNat < 2 ^ s.cfg.widths.freqW ∧
    ps.length = fieldTxns (initTriples s.cfg.chip 915) ∧ p.2 = s.cfg.chip.versionExpected ∧
    s.replies = pulseScript ++ (txn p ++ (script ps ++ (.pin true :: []))) :=
  ⟨given (pulseScript ++ (txn (0, 0x12) ++ (script (bytes (List.replicate 14 0x72)) ++ (.pin true :: [])))),
    (0, 0x12), bytes (List.replicate 14 0x72), by decide, by decide, by decide, by decide, rfl⟩

theorem witness_InitPerformsFiftyEvents : ∃ (s : State) (p : Byte × Byte) (ps : List (Byte × Byte)), s.Idle ∧
    (915 : BitVec 24).toNat < 2 ^ s.cfg.widths.freqW ∧
    s.cfg.chip.Admissible ∧ s.cfg.chip.lnaBoostMask ≠ 0xFF#8 ∧ p.2 = s.cfg.chip.versionExpected ∧ ps.length = 14 ∧
    s.replies = pulseScript ++ (txn p ++ (script ps ++ (.pin true :: []))) :=
  ⟨given (pulseScript ++ (txn (0, 0x12) ++ (script (bytes (List.replicate 14 0x72)) ++ (.pin true :: [])))),
    (0, 0x12), bytes (List.replicate 14 0x72), by decide, by decide, by decide, by decide, by decide, by decide, rfl⟩

theorem witness_InitVersionMismatchFails : State.reset.Idle ∧
    (1023 : BitVec 24).toNat < 2 ^ State.reset.cfg.widths.freqW ∧ ((0, 0x22) : Byte × Byte).2 ≠ State.reset.cfg.chip.versionExpected ∧
    (given (pulseScript ++ (txn (0, 0x22) ++ []))).replies = pulseScript ++ (txn (0, 0x22) ++ []) := by
  decide

/-- An `INIT` that ends in each of its ways, Ready and the four causes of Failed, and one that still runs. -/
theorem witness_InitEndsReadyOrFailed :
    (∃ t, exec (.init 915) (given (pulseScript ++ (txn (0, 0x12) ++ (script (bytes (List.replicate 14 0x72)) ++ [.pin true])))) =
      .next t ∧ t.busy = false ∧ t.life = .ready) ∧
    (∃ t, exec (.init 915) (given (pulseScript ++ [.pin false])) = .next t ∧ t.busy = false ∧ t.status = 0x01) ∧
    (∃ t, exec (.init 915) (given [.pin false]) = .next t ∧ t.busy = false ∧ t.status = 0x02) ∧
    (∃ t, exec (.init 915) (given (pulseScript ++ [.pin true, .xfer none])) = .next t ∧ t.busy = false ∧ t.status = 0x03) ∧
    (∃ t, exec (.init 915) (given (pulseScript ++ txn (0, 0x22))) = .next t ∧ t.busy = false ∧ t.status = 0x04) ∧
    (∃ t, exec (.init 915) (given [.pin true]) = .next t ∧ t.busy = true ∧ t.life ≠ .configuring) ∧
    (given []).Idle ∧ (915 : BitVec 24).toNat < 2 ^ (given []).cfg.widths.freqW :=
  ⟨⟨_, rfl, rfl, rfl⟩, ⟨_, rfl, rfl, rfl⟩, ⟨_, rfl, rfl, rfl⟩, ⟨_, rfl, rfl, rfl⟩, ⟨_, rfl, rfl, rfl⟩, ⟨_, rfl, rfl, nofun⟩,
    by decide, by decide⟩

/-- Each boundary with its replies at hand. -/
theorem witness_InitMovesLifeAtItsBoundaries :
    (given []).Idle ∧ (1023 : BitVec 24).toNat < 2 ^ (given []).cfg.widths.freqW ∧ (given []).replies = [] ∧
    (given [.pin true, .delay, .pin true]).replies = [.pin true, .delay, .pin true] ∧
    (given pulseScript).replies = pulseScript ∧
    ((given (pulseScript ++ txn (0, 0x12))).replies = pulseScript ++ txn (0, 0x12) ∧
      ((0, 0x12) : Byte × Byte).2 = (given []).cfg.chip.versionExpected) ∧
    ((given (pulseScript ++ (txn (0, 0x12) ++ script (bytes (List.replicate 14 0x72))))).replies =
        pulseScript ++ (txn (0, 0x12) ++ script (bytes (List.replicate 14 0x72))) ∧
      (bytes (List.replicate 14 0x72)).length = fieldTxns (initTriples (given []).cfg.chip 1023)) :=
  ⟨by decide, by decide, rfl, rfl, rfl, ⟨rfl, by decide⟩, rfl, by decide⟩

theorem witness_SetModeWritesHeaderThenMode : ∃ (s : State) (ps : List (Byte × Byte)), s.Ready ∧
    ((4, .receiveSingle) : BitVec 3 × Mode) ∈ [(0, .sleep), (1, .standby), (2, .transmit), (3, .receiveContinuous), (4, .receiveSingle)] ∧
    ps.length = fieldTxns (modeTriples s.cfg.chip s.hdr .receiveSingle) ∧ s.replies = script ps ++ [] :=
  ⟨given (script (bytes [0x72, 0, 0]) ++ []), bytes [0x72, 0, 0], by decide, by decide, by decide, rfl⟩

/-- `SET_MODE` ending with success, ending with an error, and still running. -/
theorem witness_SetModeCommitsOnSuccessOnly :
    ((0, .sleep) : BitVec 3 × Mode) ∈ [(0, .sleep), (1, .standby), (2, .transmit), (3, .receiveContinuous), (4, .receiveSingle)] ∧
    (∃ t, exec (.setMode 0) (given (script (bytes [0x72, 0, 0]))) = .next t ∧ t.busy = false ∧ t.status = 0x00) ∧
    (∃ t, exec (.setMode 0) (given [.pin false]) = .next t ∧ t.status ≠ 0x00) ∧
    (∃ t, exec (.setMode 0) (given []) = .next t ∧ t.busy = true) :=
  ⟨by decide, ⟨_, rfl, rfl, rfl⟩, ⟨_, rfl, by decide⟩, _, rfl, rfl⟩

theorem witness_SetHeaderWritesCacheOnly : ready.Ready := by decide

theorem witness_SetFrequencyWritesThreeBytes : (1023 : BitVec 24).toNat < 2 ^ (given []).cfg.widths.freqW ∧
    (given (script (bytes [0, 0, 0]))).Ready ∧
    (given (script (bytes [0, 0, 0]))).replies = script [(0, 0), (0, 0), (0, 0)] ++ [] := by decide

theorem witness_SetFrequencyCommitsOnSuccessOnly :
    (∃ t, exec (.setFrequency 1023) (given (script (bytes [0, 0, 0]))) = .next t ∧ t.busy = false ∧ t.status = 0x00) ∧
    (∃ t, exec (.setFrequency 1023) (given [.pin true, .xfer none]) = .next t ∧ t.status ≠ 0x00) ∧
    (∃ t, exec (.setFrequency 1023) (given []) = .next t ∧ t.busy = true) ∧
    (1023 : BitVec 24).toNat < 2 ^ (given []).cfg.widths.freqW :=
  ⟨⟨_, rfl, rfl, rfl⟩, ⟨_, rfl, by decide⟩, ⟨_, rfl, rfl⟩, by decide⟩

theorem witness_SetSfWritesNibbleAndFlag : bwHz ((0x82 : Byte).extractLsb' 4 4).toNat = some 250000 ∧
    bwHz ((0x02 : Byte).extractLsb' 4 4).toNat = some 7800 ∧
    ∃ (s : State) (ps : List (Byte × Byte)), s.Ready ∧ bwHz ((0x72 : Byte).extractLsb' 4 4).toNat = some 125000 ∧
      ps.length = fieldTxns (ldoTriples s.cfg ((0xC0 : Byte).extractLsb' 4 4).toNat 125000) ∧
      s.replies = script [(0, 0), (0, 0), (0, 0x70), (0, 0), (0, 0x72), (0, 0xC0)] ++ (script ps ++ []) :=
  ⟨rfl, rfl, given (script [(0, 0), (0, 0), (0, 0x70), (0, 0), (0, 0x72), (0, 0xC0)] ++ (script (bytes [0x04, 0]) ++ [])),
    bytes [0x04, 0], by decide, by decide, by decide, rfl⟩

theorem witness_SetBwWritesIndexAndFlag :
    (given (script (bytes [0x98, 0, 0x08, 0x94, 0x04, 0]))).Ready ∧ bwHz ((0x08 : Byte).extractLsb' 4 4).toNat = some 7800 ∧
    (bytes [0x04, 0]).length = fieldTxns (ldoTriples ready.cfg ((0x94 : Byte).extractLsb' 4 4).toNat 7800) ∧
    (given (script (bytes [0x98, 0, 0x08, 0x94, 0x04, 0]))).replies =
      script (bytes [0x98, 0, 0x08, 0x94]) ++ (script (bytes [0x04, 0]) ++ []) := by decide

theorem witness_SettersReportUnknownBandwidth : 8 < ((0x90 : Byte).extractLsb' 4 4).toNat ∧ 8 < ((0xF0 : Byte).extractLsb' 4 4).toNat ∧
    (given (script (bytes [0, 0, 0x70, 0, 0x90]))).replies = script (bytes [0, 0, 0x70, 0, 0x90]) ++ [] ∧
    (given (script (bytes [0x78, 0, 0x98]))).replies = script (bytes [0x78, 0, 0x98]) ++ [] := by decide

/-- Each of the five setters of the statement, with the default lists. -/
theorem witness_FieldListSettersWriteTheirLists : ∀ i ∈ [Instr.setCr 8, .setPreamble 65535, .setCrc 1, .setInvertIq 1, .setDio0TxDone],
    ∃ (s : State) (l : List FieldTriple) (ps : List (Byte × Byte)), s.Ready ∧
      (i = .setCr 8 ∧ l = [{ addr := s.cfg.chip.reg.mc1, mask := s.cfg.chip.crMask, val := 0x08 }] ∨
        i = .setPreamble 65535 ∧ l = preambleList s.cfg.chip 65535 ∨
        i = .setCrc 1 ∧ l = [{ addr := s.cfg.chip.reg.crcAddr, mask := s.cfg.chip.crcMask, val := s.cfg.chip.crcMask }] ∨
        i = .setInvertIq 1 ∧ l = invertIqList s.cfg.chip 1 ∨ i = .setDio0TxDone ∧ l = dio0List s.cfg.chip) ∧
      ps.length = fieldTxns l ∧ s.replies = script ps ++ [] := by
  intro i hi
  fin_cases hi
  exacts [⟨given (script (bytes [0x72, 0]) ++ []), _, bytes [0x72, 0], by decide, .inl ⟨rfl, rfl⟩, by decide, rfl⟩,
    ⟨given (script (bytes [0, 0]) ++ []), _, bytes [0, 0], by decide, .inr (.inl ⟨rfl, rfl⟩), by decide, rfl⟩,
    ⟨given (script (bytes [0xC0, 0]) ++ []), _, bytes [0xC0, 0], by decide, .inr (.inr (.inl ⟨rfl, rfl⟩)), by decide, rfl⟩,
    ⟨given (script (bytes [0x27, 0]) ++ []), _, bytes [0x27, 0], by decide, .inr (.inr (.inr (.inl ⟨rfl, rfl⟩))), by decide, rfl⟩,
    ⟨given (script (bytes [0]) ++ []), _, bytes [0], by decide, .inr (.inr (.inr (.inr ⟨rfl, rfl⟩))), by decide, rfl⟩]

theorem witness_DirectSettersWriteOneByte : (given (script (bytes [0]))).Ready ∧
    (given (script (bytes [0]))).replies = script [(0, 0)] ++ [] := by decide

theorem witness_SingleReadGettersDeliver : (given (script (bytes [0xFF]))).Ready ∧
    (given (script (bytes [0xFF]))).replies = script [(0, 0xFF)] ++ [] := by decide

/-- The last index with a bandwidth, 8, and the first without, 9. -/
theorem witness_GetBwDeliversTableValue : (given (script (bytes [0x8F]))).Ready ∧ bwHz ((0x8F : Byte).extractLsb' 4 4).toNat = some 250000 ∧
    8 < ((0x92 : Byte).extractLsb' 4 4).toNat ∧ ¬ 8 < ((0x8F : Byte).extractLsb' 4 4).toNat := by decide

theorem witness_GetFreqErrorScalesOnce : (given (script (bytes [0x0F, 0xFF, 0xFF, 0x82]))).Ready ∧
    (given (script (bytes [0x0F, 0xFF, 0xFF, 0x82]))).replies = script (bytes [0x0F, 0xFF, 0xFF, 0x82]) ++ [] ∧
    bwHz ((0x82 : Byte).extractLsb' 4 4).toNat = some 250000 ∧ 8 < ((0x98 : Byte).extractLsb' 4 4).toNat := by decide

theorem witness_TransmitSendsPayload : ∃ (s : State) (ps bs ts : List (Byte × Byte)), s.Ready ∧ s.txlen = 3 ∧
    ps.length = fieldTxns (modeTriples s.cfg.chip s.hdr .standby ++ headerTriples s.cfg.chip s.hdr) ∧
    bs.length = s.txlen.toNat ∧ ts.length = fieldTxns (modeTriples s.cfg.chip s.hdr .transmit) ∧
    s.replies = script ps ++ (script (bytes [0, 0, 0, 0, 0]) ++ (script bs ++ (script ts ++ []))) :=
  ⟨{ given (script (bytes [0x72, 0, 0, 0x72, 0]) ++ (script (bytes [0, 0, 0, 0, 0]) ++ (script (bytes [0, 0, 0]) ++
      (script (bytes [0x72, 0, 0]) ++ [])))) with txlen := 3 },
    bytes [0x72, 0, 0, 0x72, 0], bytes [0, 0, 0], bytes [0x72, 0, 0], by decide, by decide, by decide, by decide, by decide, rfl⟩

/-- `TRANSMIT` ending with success (`TXLEN` = 0), ending with an error, and still running; a poll ending with success, one with
`ReceiveTimeout`, faults before and after the mode is written, and a poll still running. -/
theorem witness_TransmitAndPollsCommitMode :
    (given []).Ready ∧
    (∃ t, exec .transmit (given (script (bytes (List.replicate 13 0)))) = .next t ∧ t.busy = false ∧ t.status = 0x00) ∧
    (∃ t, exec .transmit (given (script (bytes [0, 0, 0]) ++ [.pin false])) = .next t ∧ t.status ≠ 0x00) ∧
    (∃ t, exec .transmit (given []) = .next t ∧ t.busy = true) ∧
    (∃ t, exec .pollIrq (given (script (bytes [0x72, 0, 0, 0x40, 0x40, 0, 20]))) = .next t ∧ t.busy = false ∧
      t.status ∈ [0x00, 0x05]) ∧
    (∃ t, exec (.pollIrqT 0) (given (script (bytes [0x72, 0, 0, 0]))) = .next t ∧ t.busy = false ∧ t.status ∈ [0x00, 0x05]) ∧
    (∃ t, exec .pollIrq (given [.pin false]) = .next t ∧ t.busy = false ∧ t.mode = .standby) ∧
    (∃ t, exec .pollIrq (given (script (bytes [0x72, 0, 0]) ++ [.pin true, .xfer none])) = .next t ∧ t.busy = false ∧
      t.mode = .receiveContinuous) ∧
    (∃ t, exec (.pollIrqT 5) (given []) = .next t ∧ t.busy = true) :=
  ⟨by decide, ⟨_, rfl, rfl, rfl⟩, ⟨_, rfl, by decide⟩, ⟨_, rfl, rfl⟩, ⟨_, rfl, rfl, by decide⟩, ⟨_, rfl, rfl, by decide⟩,
    ⟨_, rfl, rfl, rfl⟩, ⟨_, rfl, rfl, rfl⟩, _, rfl, rfl⟩

theorem witness_PollIrqDeliversCount : ∃ (s : State) (ps cs : List (Byte × Byte)), s.Ready ∧
    ps.length = fieldTxns (modeTriples s.cfg.chip s.hdr .receiveContinuous) ∧ (∀ c ∈ cs, c.2.getLsbD 6 = false) ∧
    (0x40 : Byte).getLsbD 6 = true ∧
    s.replies = script ps ++ (pollScript cs ++ (script [(0, 0x40), (0, 0x40), (0, 0), (0, 20)] ++ [])) :=
  ⟨given (script (bytes [0x72, 0, 0]) ++ (pollScript (bytes [0x00, 0xBF]) ++ (script [(0, 0x40), (0, 0x40), (0, 0), (0, 20)] ++ []))),
    bytes [0x72, 0, 0], bytes [0x00, 0xBF], by decide, by decide, by simp [bytes], by decide, rfl⟩

theorem witness_PollIrqNeverGivesUp :
    (bytes [0x72, 0, 0]).length = fieldTxns (modeTriples ready.cfg.chip ready.hdr .receiveContinuous) ∧
    (∀ c ∈ bytes [0xBF, 0xBF, 0xBF], c.2.getLsbD 6 = false) ∧
    (given (script (bytes [0x72, 0, 0]) ++ pollScript (bytes [0xBF, 0xBF, 0xBF]))).replies =
      script (bytes [0x72, 0, 0]) ++ pollScript (bytes [0xBF, 0xBF, 0xBF]) ∧
    (given (script (bytes [0x72, 0, 0]) ++ pollScript (bytes [0xBF, 0xBF, 0xBF]))).Ready :=
  ⟨by decide, by simp [bytes], rfl, by decide⟩

/-- The bit set at the last read that counts: two clear reads with `B` = 2, none with `B` = 0. -/
theorem witness_PollIrqTDeliversCount : (bytes []).length ≤ (0 : BitVec 24).toNat * ready.cfg.pollUnitTicks ∧
    ∃ (s : State) (ps cs : List (Byte × Byte)), s.Ready ∧ (2 : BitVec 24).toNat < 2 ^ s.cfg.widths.timeoutW ∧
      ps.length = fieldTxns (modeTriples s.cfg.chip s.hdr .receiveContinuous) ∧
      cs.length ≤ (2 : BitVec 24).toNat * s.cfg.pollUnitTicks ∧ (∀ c ∈ cs, c.2.getLsbD 6 = false) ∧
      (0x40 : Byte).getLsbD 6 = true ∧
      s.replies = script ps ++ (pollScript cs ++ (script [(0, 0x40), (0, 0x40), (0, 0), (0, 20)] ++ [])) :=
  ⟨by decide,
    given (script (bytes [0x72, 0, 0]) ++ (pollScript (bytes [0x00, 0xBF]) ++ (script [(0, 0x40), (0, 0x40), (0, 0), (0, 20)] ++ []))),
    bytes [0x72, 0, 0], bytes [0x00, 0xBF], by decide, by decide, by decide, by decide, by simp [bytes], by decide, rfl⟩

theorem witness_PollIrqTTimesOut : (bytes []).length = (0 : BitVec 24).toNat * ready.cfg.pollUnitTicks ∧
    ∃ (s : State) (ps cs : List (Byte × Byte)), s.Ready ∧ (2 : BitVec 24).toNat < 2 ^ s.cfg.widths.timeoutW ∧
      ps.length = fieldTxns (modeTriples s.cfg.chip s.hdr .receiveContinuous) ∧
      cs.length = (2 : BitVec 24).toNat * s.cfg.pollUnitTicks ∧ (∀ c ∈ cs, c.2.getLsbD 6 = false) ∧
      (0xBF : Byte).getLsbD 6 = false ∧ s.replies = script ps ++ (pollScript cs ++ (txn (0, 0xBF) ++ [])) :=
  ⟨by decide, given (script (bytes [0x72, 0, 0]) ++ (pollScript (bytes [0x00, 0xBF]) ++ (txn (0, 0xBF) ++ []))),
    bytes [0x72, 0, 0], bytes [0x00, 0xBF], by decide, by decide, by decide, by decide, by simp [bytes], by decide, rfl⟩

theorem witness_ReadPacketFillsBuffer : (bytes []).length = (0 : Byte).toNat ∧
    ∃ (s : State) (bs : List (Byte × Byte)), s.Ready ∧ bs.length = (3 : Byte).toNat ∧
      s.replies = script [(0, 0), (0, 0), (0, 3), (0, 0x10), (0, 0)] ++ (script bs ++ (txn (0, 0) ++ [])) :=
  ⟨rfl, given (script [(0, 0), (0, 0), (0, 3), (0, 0x10), (0, 0)] ++ (script (bytes [0xAA, 0xBB, 0xCC]) ++ (txn (0, 0) ++ []))),
    bytes [0xAA, 0xBB, 0xCC], by decide, rfl, rfl⟩

theorem witness_ReadPacketCommitsLengthLast :
    (∃ t, exec .readPacket (given (script (bytes [0, 0, 0, 0x55, 0, 0]))) = .next t ∧ t.busy = false ∧ t.status = 0x00) ∧
    (∃ t, exec .readPacket (given [.pin false]) = .next t ∧ t.status ≠ 0x00) ∧
    (∃ t, exec .readPacket (given []) = .next t ∧ t.busy = true) :=
  ⟨⟨_, rfl, rfl, rfl⟩, ⟨_, rfl, by decide⟩, _, rfl, rfl⟩

theorem witness_FlagCommandsReadAndClear : (given (script (bytes [0x50]))).Ready ∧
    (given (script (bytes [0x50]))).replies = script [(0, 0x50)] ++ [] ∧
    (given (script (bytes [0x48, 0]))).replies = script [(0, 0x48), (0, 0)] ++ [] := by decide

theorem witness_OnlyInitMovesLife : isCommand .getSf = true ∧ isInit (some .getSf) = false ∧
    ∃ t, exec .getSf (given [.pin true, .xfer none]) = .next t ∧ t.life = .ready := ⟨rfl, rfl, _, rfl, rfl⟩

theorem witness_CachesHaveOnlyTheirWriters : isCommand (.wrReg 0x01 0x80) = true ∧
    ∃ t, exec (.wrReg 0x01 0x80) (given (script (bytes [0]))) = .next t ∧ t.mode = .standby := ⟨rfl, _, rfl, rfl⟩

theorem witness_CommandsLeaveHostSideAlone : ∃ t, exec .getSf (given (script (bytes [0xC4]))) = .next t ∧ t.trace.length = 3 :=
  ⟨_, rfl, rfl⟩

/-- A command that ends and one that still runs. -/
theorem witness_HiddenRegistersAreNeverRead :
    (∃ t, exec .getSf (given (script (bytes [0xC4]))) = .next t ∧ t.busy = false ∧ t.result = 12) ∧
    (∃ t, exec .getSf (given [.pin true]) = .next t ∧ t.busy = true) :=
  ⟨⟨_, rfl, rfl, rfl⟩, _, rfl, rfl⟩

/-- Each clause with its operation at hand, at the ends of its range: byte 254 exists and 255 does not, the first and the last
code of `LIFE`, `MODE` and `HDR`, a busy block for `LIFE` and `BUSY`, a written last byte of each buffer. -/
theorem witness_HostPortReadsAndWrites :
    (hosting (.writeTx 254 7)).busy = false ∧ (hosting (.writeTx 254 7)).host = .writeTx 254 7 :: [] ∧ (254 : Byte).toNat < 255 ∧
    (hosting (.writeTx 255 7)).host = .writeTx 255 7 :: [] ∧ (255 : Byte).toNat = 255 ∧
    (hosting (.writeTxLen 255)).host = .writeTxLen 255 :: [] ∧ (hosting .wait).host = .wait :: [] ∧
    ({ running (.recv 0x42) [] with host := [.readReg .life], life := .failed } : State).life = .failed ∧
    ((.failed, 5) : Life × Word) ∈ [(.poweredUnknown, 0), (.resetting, 1), (.versionCheck, 2), (.configuring, 3), (.ready, 4), (.failed, 5)] ∧
    ({ running (.recv 0x42) [] with host := [.readReg .busy] } : State).host = .readReg .busy :: [] ∧
    (∀ r ∈ [HostReg.status, .result, .freq, .txlen, .rxlen], (hosting (.readReg r)).host = .readReg r :: []) ∧
    (∀ p ∈ [(Mode.sleep, (0 : Word)), (.receiveSingle, 4)],
      p ∈ [(.sleep, 0), (.standby, 1), (.transmit, 2), (.receiveContinuous, 3), (.receiveSingle, 4)] ∧
      ({ hosting (.readReg .mode) with mode := p.1 } : State).host = .readReg .mode :: []) ∧
    (∀ p ∈ [(HeaderMode.explicit, (0 : Word)), (.implicit, 1)],
      p ∈ [(.explicit, 0), (.implicit, 1)] ∧ ({ hosting (.readReg .hdr) with hdr := p.1 } : State).host = .readReg .hdr :: []) ∧
    Buffer.read ({ hosting (.readBuf .rx 254) with rxbuf := [(254, 7)] } : State).rxbuf (254 : Byte).toNat = some 7 ∧
    Buffer.read ({ hosting (.readBuf .tx 254) with txbuf := [(254, 7)] } : State).txbuf (254 : Byte).toNat = some 7 ∧
    (hosting (.readBuf .rx 255)).host = .readBuf .rx 255 :: [] := by decide

/-- The four pieces meet without a gap or an overlap: 44 and 45, 120 and 121, 240 and 241. -/
theorem witness_OcpTrimIsPiecewise : (44 < 45 ∧ 45 ≤ 45 ∧ 120 ≤ 120 ∧ 120 < 121 ∧ 240 ≤ 240 ∧ 240 < 241) ∧
    ocpTrim 44 = 0 ∧ ocpTrim 45 = 0 ∧ ocpTrim 120 = 15 ∧ ocpTrim 121 = 15 ∧ ocpTrim 240 = 27 ∧ ocpTrim 241 = 27 := by decide

/-- The first and the last of the nine, and operands beside them. -/
theorem witness_BandwidthIndexIsExact :
    (((7800 : BitVec 24).toNat, 0) ∈ [(7800, 0), (250000, 8)] ∧ ((250000 : BitVec 24).toNat, 8) ∈ [(7800, 0), (250000, 8)]) ∧
    bwIndex 250000 ≤ 8 ∧ bwIndex 7800 = 0 ∧ bwIndex 7801 = 9 ∧ bwIndex 0 = 9 ∧ 8 < 9 := by
  decide

/-- The threshold row of spreading factor 12: 250000 Hz exceeds the threshold only in `exact` arithmetic. -/
theorem witness_LowDataRateFlagCells : 12 ≤ 15 ∧ 250000 ∈ bwTable ∧ ldoFlag .exact 12 250000 = true ∧
    ldoFlag .truncating 12 250000 = false ∧ ldoFlag .exact 7 10400 = false ∧ 15 ≤ 15 ∧ 7800 ∈ bwTable ∧
    ldoFlag .exact 15 7800 = true ∧ ldoFlag .truncating 15 7800 = true := by decide

theorem witness_ModeByteKeepsLongRangeBit : defaultChipMap.Admissible := by decide

/-- The last operand of 10 bits keeps all of its product, the next one wraps. -/
theorem witness_FrequencyBytesRebuildWord : (1023 : BitVec 24).toNat ≤ 1023 ∧ frf24 1023 = 0xFFC000 ∧ frf24 1024 = 0 := by decide

/-- Each open parameter at its default and at another value, each clause at the ends of its operand. -/
theorem witness_OpenSettersSendTheirParameters : 2 ≤ 17 ∧ defaultChipMap.paMap = .boost ∧
    defaultChipMap.preambleSeq = .registerPair ∧ defaultChipMap.invertIqSeq = .bitSix ∧
    defaultChipMap.dio0TxDoneSeq = .mappingByte ∧ (List.replicate 256 (7 : Byte))[(255 : Byte).toNat]? = some 7 ∧
    ([[{ addr := 0, mask := 0xFF, val := 1 }]] : List (List FieldTriple))[(0 : BitVec 16).toNat]? =
      some [{ addr := 0, mask := 0xFF, val := 1 }] ∧
    ({ defaultChipMap with invertIqSeq := .lists [] [] } : ChipMap).invertIqSeq = .lists [] [] ∧
    ({ defaultChipMap with dio0TxDoneSeq := .list [] } : ChipMap).dio0TxDoneSeq = .list [] := by decide

end Sys2Proof.Tests
end

section
/-! SUPPORT. What the movement of `upc` can do, said once as a relation: what passing a micro-step writes, where `upc` comes to
rest, which error a micro-step raises. Every property of a run is an induction over it. -/

namespace Sys2Proof.Machine

/-- The micro-steps that write no more than the working registers when `upc` passes them. -/
def worksOnly : MicroOp → Bool
  | .checkVersion => true
  | .bandwidth => true
  | .spreading => true
  | .loadTxLen => true
  | .clearIdx => true
  | .nextIdx => true
  | .txLoop => true
  | .rxLoop => true
  | .pollTest => true
  | .clearCnt => true
  | .pollTestBounded _ => true
  | _ => false

/-- What passing a micro-step writes: a primitive that succeeds its event with the shadow or the byte received, an assignment
its register. -/
inductive Writes : MicroOp → State → State → Prop
  | pin (p : Pin) (l : Level) (s : State) : Writes (.pin p l) s ((s.log (.pin p l true)).setShadow p l)
  | recv (a : RegAddr) (e : Event) (b : Byte) (s : State) :
      Writes (.recv a) s { s.log e with work := { s.work with rx := b } }
  | send (a : RegAddr) (src : ByteSrc) (e : Event) (s : State) : Writes (.send a src) s (s.log e)
  | delay (n : Nat) (s : State) : Writes (.delay n) s (s.log (.delay n))
  | work {op : MicroOp} (s : State) (w : Work) (h : worksOnly op = true) : Writes op s { s with work := w }
  | take (d : Dest) (s : State) : Writes (.take d) s (s.store d s.work.rx)
  | setLife (l : Life) (s : State) : Writes (.setLife l) s { s with life := l }
  | setHdr (h : HeaderMode) (s : State) : Writes (.setHdr h) s { s with hdr := h }
  | setMode (m : Mode) (s : State) : Writes (.setMode m) s { s with mode := m }
  | setFreq (f : BitVec 24) (s : State) : Writes (.setFreq f) s { s with freq := f }
  | setRxLen (s : State) : Writes .setRxLen s { s with rxlen := s.work.n }

/-- Passing a micro-step leaves `BUSY`, the latched command and the parameters. -/
theorem writes_frame {op : MicroOp} {s t : State} (h : Writes op s t) :
    t.busy = s.busy ∧ t.latch = s.latch ∧ t.cfg = s.cfg := by
  cases h with
  | pin p l => cases p <;> exact ⟨rfl, rfl, rfl⟩
  | take d => cases d <;> exact ⟨rfl, rfl, rfl⟩
  | _ => exact ⟨rfl, rfl, rfl⟩

/-- The errors a micro-step can raise (60_exceptions.md R180): a primitive its own fault, a test the error it tests for. -/
inductive Raises : MicroOp → Err → Prop
  | pin (p : Pin) (l : Level) : Raises (.pin p l) (pinErr p)
  | recv (a : RegAddr) : Raises (.recv a) .busTransport
  | send (a : RegAddr) (src : ByteSrc) : Raises (.send a src) .busTransport
  | checkVersion (b : Byte) : Raises .checkVersion (.versionMismatch b)
  | bandwidth (i : Byte) : Raises .bandwidth (.bandwidthUnknown i)
  | pollTestBounded (n : Nat) : Raises (.pollTestBounded n) .receiveTimeout

/-- Where `upc` comes to rest, and what it then has in place of the micro-step: a primitive or a frame itself, a loop the next
pass of its body. -/
inductive Waits (c : ChipMap) : MicroOp → List MicroOp → Prop
  | pin (p : Pin) (l : Level) : Waits c (.pin p l) [.pin p l]
  | recv (a : RegAddr) : Waits c (.recv a) [.recv a]
  | send (a : RegAddr) (src : ByteSrc) : Waits c (.send a src) [.send a src]
  | frame (f : FrameWord) : Waits c (.frame f) [.frame f]
  | delay (n : Nat) : Waits c (.delay n) [.delay n]
  | txLoop : Waits c .txLoop (txBody c)
  | rxLoop : Waits c .rxLoop (rxBody c)
  | pollTest : Waits c .pollTest (.delay pollIdleMs :: (rd c.reg.irqFlags .regT ++ [.pollTest]))
  | pollTestBounded (n : Nat) :
      Waits c (.pollTestBounded n) (.delay pollTickMs :: (rd c.reg.irqFlags .regT ++ [.pollTestBounded n]))

/-- What a movement of `upc` can do (10_state.md R13): reach the end of the micro-sequence, with or without a result; abort; come
to rest; or pass a micro-step and go on. -/
inductive Moves : List MicroOp → State → State → Prop
  | ends (s : State) : Moves [] s (s.complete 0)
  | returns (r : ResultSrc) (rest : List MicroOp) (s : State) : Moves (.ret r :: rest) s (s.complete (s.resultOf r))
  | raises {op : MicroOp} {e : Err} (rest : List MicroOp) (s : State) (h : Raises op e) : Moves (op :: rest) s (s.abort e)
  | waits {op : MicroOp} {body : List MicroOp} (rest : List MicroOp) (s : State) (w : Work) (h : Waits s.cfg.chip op body) :
      Moves (op :: rest) s { s with work := w, upc := body ++ rest }
  | passes {op : MicroOp} {rest : List MicroOp} {s u t : State} (hw : Writes op s u) (hm : Moves rest u t) :
      Moves (op :: rest) s t

/-- `advance` does nothing else. -/
theorem advance_moves (ops : List MicroOp) (s : State) : Moves ops s (advance ops s) := by
  induction ops generalizing s with
  | nil => exact .ends s
  | cons op rest ih =>
    cases op with
    | ret r => exact .returns r rest s
    | pin p l => exact .waits rest s s.work (.pin p l)
    | recv a => exact .waits rest s s.work (.recv a)
    | send a src => exact .waits rest s s.work (.send a src)
    | frame f => exact .waits rest s s.work (.frame f)
    | delay n => exact .waits rest s s.work (.delay n)
    | take d => exact .passes (.take d s) (ih _)
    | setLife l => exact .passes (.setLife l s) (ih _)
    | setHdr h => exact .passes (.setHdr h s) (ih _)
    | setMode m => exact .passes (.setMode m s) (ih _)
    | setFreq f => exact .passes (.setFreq f s) (ih _)
    | spreading => exact .passes (.work s _ rfl) (ih _)
    | loadTxLen => exact .passes (.work s _ rfl) (ih _)
    | clearIdx => exact .passes (.work s _ rfl) (ih _)
    | nextIdx => exact .passes (.work s _ rfl) (ih _)
    | clearCnt => exact .passes (.work s _ rfl) (ih _)
    | setRxLen => exact .passes (.setRxLen s) (ih _)
    | checkVersion =>
      simp only [advance]
      split
      · exact .passes (.work s s.work rfl) (ih s)
      · exact .raises rest s (.checkVersion _)
    | bandwidth =>
      simp only [advance]
      split
      · exact .passes (.work s _ rfl) (ih _)
      · exact .raises rest s (.bandwidth _)
    | txLoop =>
      simp only [advance]
      split
      · exact .waits rest s s.work .txLoop
      · exact .passes (.work s s.work rfl) (ih s)
    | rxLoop =>
      simp only [advance]
      split
      · exact .waits rest s s.work .rxLoop
      · exact .passes (.work s s.work rfl) (ih s)
    | pollTest =>
      simp only [advance]
      split
      · exact .passes (.work s s.work rfl) (ih s)
      · exact .waits rest s s.work .pollTest
    | pollTestBounded n =>
      simp only [advance]
      split
      · exact .passes (.work s s.work rfl) (ih s)
      · split
        · exact .raises rest s (.pollTestBounded n)
        · exact .waits rest s _ (.pollTestBounded n)

/-- What performing a primitive can do: nothing where the reply is of another kind; the primitive's own writes, and the rest
goes on; or the abort of the command with the error the primitive raises. -/
theorem perform_cases (r : Reply) (s : State) :
    perform r s = s ∨ ∃ op rest, s.upc = op :: rest ∧
      ((∃ u, Writes op s u ∧ perform r s = advance rest u) ∨ ∃ ev e, Raises op e ∧ perform r s = (s.log ev).abort e) := by
  unfold perform
  split
  · next p l rest ok hu =>
    refine .inr ⟨_, rest, hu, ?_⟩
    cases ok with
    | true => exact .inl ⟨_, .pin p l s, rfl⟩
    | false => exact .inr ⟨_, _, .pin p l, rfl⟩
  · next a rest x hu =>
    refine .inr ⟨_, rest, hu, ?_⟩
    cases x with
    | some p => exact .inl ⟨_, .recv a _ p.2 s, rfl⟩
    | none => exact .inr ⟨_, _, .recv a, rfl⟩
  · next a src rest x hu =>
    refine .inr ⟨_, rest, hu, ?_⟩
    cases x with
    | some p => exact .inl ⟨_, .send a src _ s, rfl⟩
    | none => exact .inr ⟨_, _, .send a src, rfl⟩
  · next n rest hu => exact .inr ⟨_, rest, hu, .inl ⟨_, .delay n s, rfl⟩⟩
  · exact .inl rfl

/-- The byte a write sends is a matter of these five. -/
theorem byteOf_congr {s t : State} (hcfg : t.cfg = s.cfg) (hhdr : t.hdr = s.hdr) (hwork : t.work = s.work)
    (htx : t.txbuf = s.txbuf) (hres : t.resets = s.resets) (src : ByteSrc) : t.byteOf src = s.byteOf src := by
  have hval (v : FieldVal) : t.fieldVal v = s.fieldVal v := by cases v <;> simp [State.fieldVal, hcfg, hhdr, hwork]
  cases src <;> simp [State.byteOf, State.txAt, hval, hwork, htx, hres]

/-- A pin operation takes its outcome from the replies at hand, or draws the next free value. -/
theorem performPin_eq (s : State) : ∃ r rs d, performPin s = perform r { s with replies := rs, drawn := d } := by
  unfold performPin
  split
  · exact ⟨_, _, s.drawn, rfl⟩
  · exact ⟨_, s.replies, _, rfl⟩

/-- So does a transfer. -/
theorem performXfer_eq (s : State) : ∃ r rs d, performXfer s = perform r { s with replies := rs, drawn := d } := by
  unfold performXfer
  split
  · exact ⟨_, _, s.drawn, rfl⟩
  · exact ⟨_, s.replies, _, rfl⟩

/-- A delay takes the reply at hand, if there is one. -/
theorem performDelay_eq (s : State) : ∃ r rs d, performDelay s = perform r { s with replies := rs, drawn := d } := by
  unfold performDelay
  split
  · exact ⟨_, _, s.drawn, rfl⟩
  · exact ⟨_, s.replies, s.drawn, rfl⟩

/-- What one step of a running command can do: perform a primitive, run the frame that waits, or move `upc` on. -/
theorem resume_cases {s t : State} (h : resume s = .next t) :
    (∃ r rs d, t = perform r { s with replies := rs, drawn := d }) ∨
      (∃ f rest i, s.upc = .frame f :: rest ∧ isCommand i = false ∧ exec i { s with upc := rest } = .next t) ∨
      t = advance s.upc s := by
  unfold resume at h
  split at h
  · cases h; exact .inl (performPin_eq s)
  · cases h; exact .inl (performXfer_eq s)
  · cases h; exact .inl (performXfer_eq s)
  · cases h; exact .inl (performDelay_eq s)
  · next f rest hu =>
    split at h
    · next i hd => exact .inr (.inl ⟨f, rest, i, hu, isCommand_of_decodeFrame hd, h⟩)
    · cases h
  · cases h; exact .inr (.inr rfl)

/-- What the meaning of a command that answers a next state has done: found an error at decode, or started its
micro-sequence, in an idle block. -/
theorem exec_next {i : Instr} {s t : State} (hc : isCommand i = true) (h : exec i s = .next t) :
    s.busy = false ∧ ((∃ e, t = s.reject e ∧ e ≠ .transmitInProgress) ∨
      (i.wf s.cfg.widths = true ∧ (isInit (some i) = true ∨ s.life = .ready) ∧ t = s.start i (microOf s.cfg i))) := by
  rw [exec_command i s hc] at h
  split at h
  · cases h
  · next hb =>
    refine ⟨by simpa using hb, ?_⟩
    split at h
    · cases h; exact .inl ⟨_, rfl, by simp⟩
    · next hw =>
      split at h
      · next hr => cases h; exact .inr ⟨by simpa using hw, hr, rfl⟩
      · cases h; exact .inl ⟨_, rfl, by simp⟩

/-! ### Properties of the registers that a run keeps -/

/-- Micro-steps a loop keeps to: where one of them waits, what `upc` then has are such micro-steps again. -/
def Closed (A : MicroOp → Prop) : Prop :=
  ∀ (c : ChipMap) (op : MicroOp) (body : List MicroOp), Waits c op body → A op → ∀ o ∈ body, A o

/-- `P` is kept by all that a run of the micro-steps in `A` can do to a state. -/
structure Kept (A : MicroOp → Prop) (P : State → Prop) : Prop where
  closed : Closed A
  write : ∀ {op s t}, Writes op s t → A op → P s → P t
  move : ∀ {s} w u, P s → P { s with work := w, upc := u }
  replies : ∀ {s} rs d, P s → P { s with replies := rs, drawn := d }
  log : ∀ {s} e, P s → P (s.log e)
  complete : ∀ {s} r, P s → P (s.complete r)
  abort : ∀ {op s e}, Raises op e → A op → P s → P (s.abort e)

section
variable {A : MicroOp → Prop} {P : State → Prop} (hk : Kept A P)
include hk

/-- A movement keeps `P`, and leaves `upc` within `A`. -/
theorem Kept.of_moves {ops : List MicroOp} {s t : State} (hm : Moves ops s t) (hA : ∀ op ∈ ops, A op) (hs : P s) :
    P t ∧ ∀ op ∈ t.upc, A op := by
  induction hm with
  | ends s => exact ⟨hk.complete _ hs, by simp⟩
  | returns r rest s => exact ⟨hk.complete _ hs, by simp⟩
  | raises rest s h => exact ⟨hk.abort h (hA _ (by simp)) hs, by simp⟩
  | @waits op body rest s w h =>
    refine ⟨hk.move _ _ hs, fun o ho => ?_⟩
    rcases List.mem_append.mp ho with hb | hr
    · exact hk.closed _ _ _ h (hA op (by simp)) o hb
    · exact hA o (by simp [hr])
  | passes hw _ ih => exact ih (fun o ho => hA o (by simp [ho])) (hk.write hw (hA _ (by simp)) hs)

/-- So does moving `upc`. -/
theorem Kept.of_advance {ops : List MicroOp} {s : State} (hA : ∀ op ∈ ops, A op) (hs : P s) :
    P (advance ops s) ∧ ∀ op ∈ (advance ops s).upc, A op :=
  hk.of_moves (advance_moves ops s) hA hs

/-- So does a primitive, whatever its outcome. -/
theorem Kept.of_perform (r : Reply) {s : State} (hA : ∀ op ∈ s.upc, A op) (hs : P s) :
    P (perform r s) ∧ ∀ op ∈ (perform r s).upc, A op := by
  obtain h | ⟨op, rest, hu, ⟨u, hw, h⟩ | ⟨ev, e, hr, h⟩⟩ := perform_cases r s
  · rw [h]; exact ⟨hs, hA⟩
  all_goals
    rw [hu] at hA
    rw [h]
  · exact hk.of_advance (fun o ho => hA o (by simp [ho])) (hk.write hw (hA op (by simp)) hs)
  · exact ⟨hk.abort hr (hA op (by simp)) (hk.log ev hs), by simp⟩

/-- So does a run, whatever the replies. -/
theorem Kept.of_run (n : Nat) {s : State} (hA : ∀ op ∈ s.upc, A op) (hs : P s) :
    P (run n s) ∧ ∀ op ∈ (run n s).upc, A op :=
  run_keeps (fun s => P s ∧ ∀ op ∈ s.upc, A op)
    (fun r rs s _ _ h => hk.of_perform r (s := { s with replies := rs }) h.2 (hk.replies rs s.drawn h.1)) n s ⟨hs, hA⟩

/-- A run from the start of a micro-sequence keeps `P`. -/
theorem Kept.of_run_advance (n : Nat) {ops : List MicroOp} {s : State} (hA : ∀ op ∈ ops, A op) (hs : P s) :
    P (run n (advance ops s)) :=
  (hk.of_run n (hk.of_advance hA hs).2 (hk.of_advance hA hs).1).1

end

end Sys2Proof.Machine
end

section
/-! What a run leaves alone, whatever the replies: `STATUS` and `RESULT` until the end (O15), `LIFE` and the caches but for their
listed writers (O50, O51), and the host's side (O52). -/

namespace Sys2Proof.Machine

/-! ### `STATUS` and `RESULT` while a command is running -/

/-- While the block is busy, `STATUS` and `RESULT` are those of `s`. -/
def HoldsStatus (s t : State) : Prop := t.busy = true → t.status = s.status ∧ t.result = s.result

/-- Every run keeps to that, since completion and abort, which write the two, leave the block idle. -/
theorem kept_holdsStatus (s : State) : Kept (fun _ => True) (HoldsStatus s) where
  closed _ _ _ _ _ _ _ := trivial
  write hw _ h := by
    cases hw with
    | pin p l => cases p <;> exact h
    | take d => cases d <;> exact h
    | _ => exact h
  move _ _ h := h
  replies _ _ h := h
  log _ h := h
  complete _ _ hb := by cases hb
  abort _ _ _ hb := by cases hb

/-- An instruction that leaves the block busy has not written `STATUS` and `RESULT`. -/
theorem exec_holdsStatus {i : Instr} {s t : State} (h : exec i s = .next t) : HoldsStatus s t := by
  cases hc : isCommand i with
  | true =>
    obtain ⟨hb, ⟨e, rfl, -⟩ | ⟨-, -, rfl⟩⟩ := exec_next hc h
    · intro hb'; rw [reject_busy, hb] at hb'; cases hb'
    · exact (kept_holdsStatus s).of_run_advance _ (fun _ _ => trivial) fun _ => ⟨rfl, rfl⟩
  | false =>
    rw [exec_frame i s hc] at h
    cases h
    exact (kept_holdsStatus s).of_run_advance 3 (fun _ _ => trivial) fun _ => ⟨rfl, rfl⟩

/-- Nor has one step of a running command that leaves it running. -/
theorem resume_holdsStatus {s t : State} (h : resume s = .next t) : HoldsStatus s t := by
  have hs : HoldsStatus s s := fun _ => ⟨rfl, rfl⟩
  obtain ⟨r, rs, d, rfl⟩ | ⟨f, rest, i, -, -, he⟩ | rfl := resume_cases h
  · exact ((kept_holdsStatus s).of_perform r (s := { s with replies := rs, drawn := d }) (fun _ _ => trivial) hs).1
  · exact exec_holdsStatus (s := { s with upc := rest }) he
  · exact ((kept_holdsStatus s).of_advance (fun _ _ => trivial) hs).1

/-- Settles O15: `STATUS` and `RESULT` are written by completion and abort only, and both leave the block idle. -/
theorem statusWrittenOnlyAtTheEnd : Obligations.StatusWrittenOnlyAtTheEnd := by
  unfold Obligations.StatusWrittenOnlyAtTheEnd
  refine ⟨fun i s t he => exec_holdsStatus he, fun s t hb hh hst => ?_⟩
  rw [step_busy s hb, hh] at hst
  exact resume_holdsStatus hst

/-! ### The writers of `LIFE` and of the caches -/

/-- The commands that write `MODE` (10_state.md R14): `INIT`, `SET_MODE`, `TRANSMIT` and the polls. -/
def setsMode : Instr → Bool
  | .init _ => true
  | .setMode _ => true
  | .transmit => true
  | .pollIrq => true
  | .pollIrqT _ => true
  | _ => false

/-- The commands that write `HDR` (R15). -/
def setsHdr : Instr → Bool
  | .init _ => true
  | .setHeader _ => true
  | _ => false

/-- The commands that write `FREQ` (R16). -/
def setsFreq : Instr → Bool
  | .init _ => true
  | .setFrequency _ => true
  | _ => false

/-- Which micro-steps the sequence of an instruction may hold: the writers of 10_state.md R11, micro-step by micro-step. The
reset pin and `LIFE` are `INIT`'s alone, no raw frame waits in any sequence, and a `FREQ` written is the operand. -/
def mayHold (i : Instr) : MicroOp → Prop
  | .pin p _ => p = .reset → isInit (some i) = true
  | .setLife _ => isInit (some i) = true
  | .frame _ => False
  | .setHdr _ => setsHdr i = true
  | .setMode _ => setsMode i = true
  | .setFreq f => i = .init f ∨ i = .setFrequency f
  | .take d => d = .rxByte → i = .readPacket
  | .rxLoop => i = .readPacket
  | .setRxLen => i = .readPacket
  | .recv _ => True
  | .send _ _ => True
  | .delay _ => True
  | .checkVersion => True
  | .bandwidth => True
  | .spreading => True
  | .loadTxLen => True
  | .clearIdx => True
  | .nextIdx => True
  | .txLoop => True
  | .pollTest => True
  | .clearCnt => True
  | .pollTestBounded _ => True
  | .ret _ => True

/-- The loops of an instruction's sequence hold no more than the sequence may. -/
theorem mayHold_closed (i : Instr) : Closed (mayHold i) := by
  intro c op body hw ho
  cases hw with
  | rxLoop => simpa [rxBody, rd, mayHold] using ho
  | pin p l => simpa using ho
  | frame f => exact ho.elim
  | _ => simp [txBody, wr, rd, mayHold]

/-- Any sequence may hold a write transaction, and so the writes made of it. -/
theorem wr_mayHold (i : Instr) (a : RegAddr) (src : ByteSrc) : ∀ op ∈ wr a src, mayHold i op := by
  simp [wr, mayHold]

theorem fieldWrite_mayHold (i : Instr) (a : RegAddr) (m : Byte) (v : FieldVal) : ∀ op ∈ fieldWrite a m v, mayHold i op := by
  unfold fieldWrite
  split
  · exact wr_mayHold i a _
  · simp [rd, wr, mayHold]

theorem fieldWrites_mayHold (i : Instr) (l : List FieldTriple) : ∀ op ∈ fieldWrites l, mayHold i op := by
  induction l with
  | nil => simp [fieldWrites]
  | cons f fs ih => exact List.forall_mem_append.mpr ⟨fieldWrite_mayHold i f.addr f.mask _, ih⟩

theorem setModeSeq_mayHold {i : Instr} (h : setsMode i = true) (c : ChipMap) (m : Mode) : ∀ op ∈ setModeSeq c m, mayHold i op := by
  simp only [setModeSeq, List.forall_mem_append]
  exact ⟨fieldWrite_mayHold i _ _ _, wr_mayHold i _ _, by simpa [mayHold] using h⟩

theorem updateLdo_mayHold (i : Instr) (c : ChipMap) : ∀ op ∈ updateLdo c, mayHold i op := by
  simp only [updateLdo, readBwHz, List.forall_mem_append]
  exact ⟨by simp [rd, mayHold], by simp [rd, mayHold], by simp [mayHold], fieldWrite_mayHold i _ _ _⟩

/-- The micro-sequence of every instruction keeps to the table. -/
theorem microOf_mayHold (c : BlockConfig) (i : Instr) : ∀ op ∈ microOf c i, mayHold i op := by
  cases i with
  | setCr d => exact fieldWrite_mayHold _ _ _ _
  | setCrc e => exact fieldWrite_mayHold _ _ _ _
  | setPreamble len => exact fieldWrites_mayHold _ _
  | setInvertIq e => exact fieldWrites_mayHold _ _
  | setDio0TxDone => exact fieldWrites_mayHold _ _
  | setMode m =>
    simp only [microOf]
    split
    · exact setModeSeq_mayHold rfl _ _
    · simp
  | setSf x =>
    simp only [microOf, setSfSeq, List.forall_mem_append]
    exact ⟨wr_mayHold _ _ _, wr_mayHold _ _ _, fieldWrite_mayHold _ _ _ _, updateLdo_mayHold _ _⟩
  | setBw hz => exact List.forall_mem_append.mpr ⟨fieldWrite_mayHold _ _ _ _, updateLdo_mayHold _ _⟩
  | init f =>
    simp only [microOf, initSeq, initConfigure, setFrequencySeq, List.forall_mem_append]
    exact ⟨by simp [initPulse, mayHold, isInit, setsHdr], by simp [rd, mayHold], by simp [mayHold, isInit],
      setModeSeq_mayHold rfl _ _, ⟨wr_mayHold _ _ _, wr_mayHold _ _ _, wr_mayHold _ _ _, by simp [mayHold]⟩, wr_mayHold _ _ _,
      wr_mayHold _ _ _, fieldWrite_mayHold _ _ _ _, wr_mayHold _ _ _, setModeSeq_mayHold rfl _ _, by simp [mayHold, isInit]⟩
  | transmit =>
    simp only [microOf, transmitSeq, applyHeader, clearIrqSeq, List.forall_mem_append]
    exact ⟨setModeSeq_mayHold rfl _ _, fieldWrite_mayHold _ _ _ _, ⟨by simp [rd, mayHold], wr_mayHold _ _ _⟩, wr_mayHold _ _ _,
      wr_mayHold _ _ _, by simp [mayHold], wr_mayHold _ _ _, by simp [mayHold], setModeSeq_mayHold rfl _ _⟩
  | pollIrq => exact List.forall_mem_append.mpr ⟨setModeSeq_mayHold rfl _ _, by simp [packetReadySeq, clearIrqSeq, rd, wr, mayHold]⟩
  | pollIrqT n =>
    exact List.forall_mem_append.mpr ⟨setModeSeq_mayHold rfl _ _, by simp [packetReadySeq, clearIrqSeq, rd, wr, mayHold]⟩
  | _ => simp [microOf, setFrequencySeq, freqErrorSeq, readBwHz, readPacketSeq, clearIrqSeq, wrLit, wr, rd, mayHold, setsHdr]

/-- What a command `i` leaves of `s` in `t`: `LIFE`, the caches and the packet it returns, but for its listed writers
(10_state.md R11). -/
structure KeepsCaches (i : Instr) (s t : State) : Prop where
  life : isInit (some i) = false → t.life = s.life
  rst : isInit (some i) = false → t.rstShadow = s.rstShadow
  mode : setsMode i = false → t.mode = s.mode
  hdr : setsHdr i = false → t.hdr = s.hdr
  freq : setsFreq i = false → t.freq = s.freq
  rxbuf : i ≠ .readPacket → t.rxbuf = s.rxbuf
  rxlen : i ≠ .readPacket → t.rxlen = s.rxlen

/-- Only `INIT` drives the reset pin, so no other command can fail there. -/
theorem ne_resetPin_of_raises {i : Instr} {op : MicroOp} {e : Err} (hr : Raises op e) (ho : mayHold i op)
    (hi : isInit (some i) = false) : e ≠ .resetPin := by
  cases hr with
  | pin p l =>
    cases p with
    | cs => simp [pinErr]
    | reset => simp [ho rfl] at hi
  | _ => simp

/-- Passing a micro-step of `i`'s sequence writes no cache but those `i` is a listed writer of. -/
theorem KeepsCaches.write {i : Instr} {s t u : State} {op : MicroOp} (h : KeepsCaches i s t) (hw : Writes op t u)
    (ho : mayHold i op) : KeepsCaches i s u := by
  cases hw with
  | pin p l =>
    cases p with
    | cs => exact { h with }
    | reset => exact { h with rst := fun hi => by simp [ho rfl] at hi }
  | recv a e b => exact { h with }
  | send a src e => exact { h with }
  | delay n => exact { h with }
  | work w hop => exact { h with }
  | take d =>
    cases d with
    | rxByte => exact { h with rxbuf := fun hi => absurd (ho rfl) hi }
    | _ => exact { h with }
  | setLife l => exact { h with life := fun hi => by simp [mayHold, hi] at ho }
  | setHdr v => exact { h with hdr := fun hi => by simp [mayHold, hi] at ho }
  | setMode m => exact { h with mode := fun hi => by simp [mayHold, hi] at ho }
  | setFreq f => exact { h with freq := fun hi => by obtain rfl | rfl := ho <;> cases hi }
  | setRxLen => exact { h with rxlen := fun hi => absurd ho hi }

/-- An abort moves `LIFE` for a latched `INIT` only. -/
theorem KeepsCaches.abort {i : Instr} {s t : State} {op : MicroOp} {e : Err} (h : KeepsCaches i s t)
    (hl : t.latch = none ∨ t.latch = some i) (hr : Raises op e) (ho : mayHold i op) : KeepsCaches i s (t.abort e) :=
  { h with
    life := fun hi => by
      have hn : isInit t.latch = false := by
        obtain hl | hl := hl <;> rw [hl]
        · rfl
        · exact hi
      simp [lifeAfter, hn, h.life hi]
    rst := fun hi => by simp [rstAfter, ne_resetPin_of_raises hr ho hi, h.rst hi] }

/-- Every run of `i`'s sequence keeps the caches `i` is no listed writer of; what is latched meanwhile is `i`. -/
theorem kept_keepsCaches (i : Instr) (s : State) :
    Kept (mayHold i) fun t => (t.latch = none ∨ t.latch = some i) ∧ KeepsCaches i s t where
  closed := mayHold_closed i
  write hw ho h := by
    obtain ⟨-, hlatch, -⟩ := writes_frame hw
    exact ⟨hlatch ▸ h.1, h.2.write hw ho⟩
  move _ _ h := ⟨h.1, { h.2 with }⟩
  replies _ _ h := ⟨h.1, { h.2 with }⟩
  log _ h := ⟨h.1, { h.2 with }⟩
  complete _ h := ⟨.inl rfl, { h.2 with }⟩
  abort hr ho h := ⟨.inl rfl, h.2.abort h.1 hr ho⟩

/-- Whatever the replies, a command changes no cache but those it is a listed writer of. -/
theorem exec_keepsCaches {i : Instr} {s t : State} (hc : isCommand i = true) (h : exec i s = .next t) : KeepsCaches i s t := by
  obtain ⟨-, ⟨e, rfl, -⟩ | ⟨-, -, rfl⟩⟩ := exec_next hc h
  · constructor <;> intros <;> rfl
  · exact ((kept_keepsCaches i s).of_run_advance _ (s := { s with busy := true, latch := some i }) (microOf_mayHold s.cfg i)
      ⟨.inr rfl, by constructor <;> intros <;> rfl⟩).2

/-- Settles O50: `INIT` alone holds a step that writes `LIFE` or drives the reset pin, and an abort moves `LIFE` for it alone. -/
theorem onlyInitMovesLife : Obligations.OnlyInitMovesLife := by
  unfold Obligations.OnlyInitMovesLife
  intro i s t hc hi h
  exact ⟨(exec_keepsCaches hc h).life hi, (exec_keepsCaches hc h).rst hi⟩

/-- Settles O51: a command's micro-sequence holds a step that writes a cache only where it is a listed writer. -/
theorem cachesHaveOnlyTheirWriters : Obligations.CachesHaveOnlyTheirWriters := by
  unfold Obligations.CachesHaveOnlyTheirWriters
  intro i s t hc h
  have hk := exec_keepsCaches hc h
  refine ⟨fun hi hm ht hp hpt => hk.mode ?_, fun hi hh => hk.hdr ?_, fun hi hf => hk.freq ?_,
    fun hp => ⟨hk.rxbuf hp, hk.rxlen hp⟩⟩
  · cases i with
    | init f => cases hi
    | setMode m => exact absurd rfl (hm m)
    | transmit => exact absurd rfl ht
    | pollIrq => exact absurd rfl hp
    | pollIrqT n => exact absurd rfl (hpt n)
    | _ => rfl
  · cases i with
    | init f => cases hi
    | setHeader v => exact absurd rfl (hh v)
    | _ => rfl
  · cases i with
    | init f => cases hi
    | setFrequency f => exact absurd rfl (hf f)
    | _ => rfl

/-! ### The host's side -/

/-- `t` has `s`'s host side and parameters; its trace goes on from `s`'s, and its replies are the last of `s`'s. -/
def KeepsHostSide (s t : State) : Prop :=
  t.txbuf = s.txbuf ∧ t.txlen = s.txlen ∧ t.host = s.host ∧ t.hostData = s.hostData ∧ t.cfg = s.cfg ∧ t.resets = s.resets ∧
  t.drawn = s.drawn ∧ (∃ evs, t.trace = s.trace ++ evs) ∧ (∃ used, s.replies = used ++ t.replies)

/-- A run from the start of a micro-sequence leaves the host's side alone. -/
theorem run_advance_keepsHostSide (n : Nat) (ops : List MicroOp) (s : State) : KeepsHostSide s (run n (advance ops s)) := by
  obtain ⟨acfg, atx, atxl, arep, adrawn, ahost, adata, ares, evs, atr⟩ := advance_frame ops s
  obtain ⟨rcfg, rtx, rtxl, rdrawn, rhost, rdata, rres, ⟨evs', rtr⟩, used, rrep⟩ := run_frame n (advance ops s)
  exact ⟨rtx.trans atx, rtxl.trans atxl, rhost.trans ahost, rdata.trans adata, rcfg.trans acfg, rres.trans ares,
    rdrawn.trans adrawn, ⟨evs ++ evs', by rw [rtr, atr, List.append_assoc]⟩, used, arep.symm.trans rrep⟩

/-- Settles O52: a run leaves the host's side alone, and so does an error found at decode. -/
theorem commandsLeaveHostSideAlone : Obligations.CommandsLeaveHostSideAlone := by
  unfold Obligations.CommandsLeaveHostSideAlone
  intro i s t h
  cases hc : isCommand i with
  | true =>
    obtain ⟨-, ⟨e, rfl, -⟩ | ⟨-, -, rfl⟩⟩ := exec_next hc h
    · exact ⟨rfl, rfl, rfl, rfl, rfl, rfl, rfl, ⟨[], by simp⟩, [], rfl⟩
    · exact run_advance_keepsHostSide _ _ { s with busy := true, latch := some i }
  | false =>
    rw [exec_frame i s hc] at h
    cases h
    exact run_advance_keepsHostSide 3 _ { s with busy := true }

end Sys2Proof.Machine
end

section
/-! The invariant (O16, O17): what it says of a resting and of a running block, and that movements of `upc`, primitives, the
acceptance of a command and the host's operations keep it. -/

namespace Sys2Proof.Machine

/-! ### The invariant, by cases on `BUSY` -/

/-- What the invariant says of the registers whether or not a command is running. -/
structure RegsOk (s : State) : Prop where
  status : s.status ∈ producedCodes
  txbuf : Buffer.wf s.txbuf = true
  rxbuf : Buffer.wf s.rxbuf = true
  freq : s.freq.toNat < 2 ^ s.cfg.widths.freqW

/-- The invariant at a resting block. -/
structure Resting (s : State) : Prop where
  idle : s.Idle
  life : s.life.resting = true
  regs : RegsOk s

/-- The invariant at a busy block that has `ops` still to run, wherever `upc` stands. -/
structure Running (ops : List MicroOp) (s : State) : Prop where
  busy : s.busy = true
  latched : s.latch ≠ none
  init : isInit s.latch = true → finalLife s.life ops = .ready
  other : isInit s.latch = false → s.life = .ready ∧ ∀ op ∈ ops, movesLife op = false
  noFrame : ∀ op ∈ ops, isFrame op = false
  fits : ∀ op ∈ ops, freqFits s.cfg.widths op = true
  regs : RegsOk s

/-- A resting block meets the invariant. -/
theorem Resting.inv {s : State} (h : Resting s) : s.Inv := by
  obtain ⟨⟨hb, hu, hl⟩, hlife, hst, htx, hrx, hf⟩ := h
  simp [State.Inv, State.inv, hb, hu, hl, hlife, hst, htx, hrx, hf]

/-- A running block meets the invariant. -/
theorem Running.inv {s : State} (h : Running s.upc s) (hne : s.upc ≠ []) : s.Inv := by
  obtain ⟨hb, hl, hinit, hother, hframe, hfits, hst, htx, hrx, hf⟩ := h
  have hrun : runningOk s = true := by
    cases hi : isInit s.latch with
    | true => simp [runningOk, hi, hl, hinit hi]
    | false => simpa [runningOk, hi, hl] using hother hi
  simp only [State.Inv, State.inv, hb, hrun, hst, htx, hrx, hf, List.all_eq_true, Bool.and_eq_true, if_true, decide_true,
    List.contains_eq_mem, decide_eq_true_eq, Bool.not_eq_true', true_iff, and_true]
  exact ⟨⟨hne, hframe⟩, hfits⟩

/-- A state that meets the invariant is resting or running. -/
theorem resting_or_running {s : State} (h : s.Inv) : Resting s ∨ (s.upc ≠ [] ∧ Running s.upc s) := by
  simp only [State.Inv, State.inv, List.all_eq_true, Bool.and_eq_true, List.contains_eq_mem, decide_eq_true_eq,
    Bool.not_eq_true'] at h
  obtain ⟨⟨⟨⟨⟨⟨⟨hbu, hlife⟩, hframe⟩, hst⟩, htx⟩, hrx⟩, hfits⟩, hf⟩ := h
  cases hb : s.busy with
  | false =>
    have hu : s.upc = [] := by simpa [hb] using hbu
    rw [hb, if_neg (by decide)] at hlife
    simp only [Bool.and_eq_true, decide_eq_true_eq] at hlife
    exact .inl ⟨⟨hb, hu, hlife.2⟩, hlife.1, hst, htx, hrx, hf⟩
  | true =>
    rw [hb, if_pos rfl] at hlife
    simp only [runningOk, Bool.and_eq_true, decide_eq_true_eq] at hlife
    obtain ⟨hl, hrun⟩ := hlife
    refine .inr ⟨hbu.mp hb, hb, hl, fun hi => ?_, fun hi => ?_, hframe, hfits, hst, htx, hrx, hf⟩
    · simpa [hi] using hrun
    · simpa [hi] using hrun

/-! ### What a movement does to it -/

/-- The block produces every code of R180 but the reserved one. -/
theorem code_mem_producedCodes {e : Err} (h : e ≠ .transmitInProgress) : e.code ∈ producedCodes := by
  cases e <;> simp_all [Err.code, producedCodes]

/-- No micro-step raises the reserved error (R187). -/
theorem code_mem_of_raises {op : MicroOp} {e : Err} (h : Raises op e) : e.code ∈ producedCodes := by
  apply code_mem_producedCodes
  cases h with
  | pin p l => cases p <;> simp [pinErr]
  | _ => simp

/-- The end of a micro-sequence, where `LIFE` has its last value. -/
theorem Running.complete {ops : List MicroOp} {s : State} (h : Running ops s) (hl : finalLife s.life ops = s.life) (r : Word) :
    (s.complete r).Inv := by
  have hready : s.life = .ready := by
    cases hi : isInit s.latch with
    | true => exact hl.symm.trans (h.init hi)
    | false => exact (h.other hi).1
  exact Resting.inv ⟨⟨rfl, rfl, rfl⟩, by simp [hready, Life.resting], { h.regs with status := by simp [producedCodes] }⟩

/-- An abort, which leaves `LIFE` Failed for `INIT` and Ready for any other command. -/
theorem Running.abort {ops : List MicroOp} {s : State} (h : Running ops s) {op : MicroOp} {e : Err} (hr : Raises op e) :
    (s.abort e).Inv := by
  refine Resting.inv ⟨⟨rfl, rfl, rfl⟩, ?_, { h.regs with status := code_mem_of_raises hr }⟩
  cases hi : isInit s.latch with
  | true => simp [lifeAfter, hi, Life.resting]
  | false => simp [lifeAfter, hi, (h.other hi).1, Life.resting]

/-- Where `LIFE` will end is not changed by going on. -/
theorem finalLife_of_writes {op : MicroOp} {s t : State} (h : Writes op s t) (rest : List MicroOp) :
    finalLife t.life rest = finalLife s.life (op :: rest) := by
  cases h with
  | pin p l => cases p <;> rfl
  | take d => cases d <;> rfl
  | work _ w hop =>
    cases op with
    | setLife l => cases hop
    | ret r => cases hop
    | _ => rfl
  | _ => rfl

/-- `LIFE` is written by its own micro-step only. -/
theorem life_of_writes {op : MicroOp} {s t : State} (h : Writes op s t) (hm : movesLife op = false) : t.life = s.life := by
  cases h with
  | pin p l => cases p <;> rfl
  | take d => cases d <;> rfl
  | setLife l => cases hm
  | _ => rfl

/-- `FREQ` takes a value that fits, and the read-out keeps `RXBUF` canonical. -/
theorem RegsOk.writes {op : MicroOp} {s t : State} (h : RegsOk s) (hw : Writes op s t)
    (hf : freqFits s.cfg.widths op = true) : RegsOk t := by
  cases hw with
  | pin p l => cases p <;> exact { h with }
  | take d =>
    cases d with
    | rxByte => exact { h with rxbuf := write_wf _ _ _ h.rxbuf }
    | _ => exact { h with }
  | setFreq f => exact { h with freq := by simpa [freqFits] using hf }
  | _ => exact { h with }

/-- A running command that passes a micro-step is running with the rest. -/
theorem Running.writes {op : MicroOp} {rest : List MicroOp} {s t : State} (h : Running (op :: rest) s) (hw : Writes op s t) :
    Running rest t := by
  obtain ⟨hbusy, hlatch, hcfg⟩ := writes_frame hw
  have htail {Q : MicroOp → Prop} (hall : ∀ o ∈ op :: rest, Q o) : ∀ o ∈ rest, Q o := fun o ho => hall o (by simp [ho])
  constructor
  case busy => rw [hbusy, h.busy]
  case latched => rw [hlatch]; exact h.latched
  case init => rw [hlatch, finalLife_of_writes hw]; exact h.init
  case other =>
    rw [hlatch]
    intro hi
    obtain ⟨hready, hstill⟩ := h.other hi
    exact ⟨by rw [life_of_writes hw (hstill op (by simp)), hready], htail hstill⟩
  case noFrame => exact htail h.noFrame
  case fits => rw [hcfg]; exact htail h.fits
  case regs => exact h.regs.writes hw (h.fits op (by simp))

/-- Where `upc` comes to rest, every micro-step is the one it stood at or a plain one. -/
theorem Waits.mem {c : ChipMap} {op : MicroOp} {body : List MicroOp} (h : Waits c op body) :
    ∀ o ∈ body, o = op ∨ (movesLife o = false ∧ isFrame o = false ∧ ∀ ws, freqFits ws o = true) := by
  cases h <;> simp [txBody, rxBody, rd, wr, movesLife, isFrame, freqFits]

/-- A loop's body has no part in where `LIFE` ends. -/
theorem finalLife_of_waits {c : ChipMap} {op : MicroOp} {body : List MicroOp} (h : Waits c op body) (l : Life)
    (rest : List MicroOp) : finalLife l (body ++ rest) = finalLife l (op :: rest) := by
  cases h <;> rfl

/-- A running command that comes to rest is running with what `upc` then has. -/
theorem Running.waits {op : MicroOp} {body rest : List MicroOp} {s : State} (h : Running (op :: rest) s)
    (hw : Waits s.cfg.chip op body) (w : Work) : Running (body ++ rest) { s with work := w, upc := body ++ rest } := by
  have hall {Q : MicroOp → Prop} (ho : ∀ o ∈ op :: rest, Q o)
      (hp : ∀ o, movesLife o = false ∧ isFrame o = false ∧ (∀ ws, freqFits ws o = true) → Q o) : ∀ o ∈ body ++ rest, Q o := by
    refine List.forall_mem_append.mpr ⟨fun o hb => ?_, fun o hr => ho o (by simp [hr])⟩
    obtain rfl | hplain := hw.mem o hb
    · exact ho o (by simp)
    · exact hp o hplain
  exact { h with
    init := fun hi => (finalLife_of_waits hw _ rest).trans (h.init hi)
    other := fun hi => ⟨(h.other hi).1, hall (h.other hi).2 fun _ ⟨hlife, _, _⟩ => hlife⟩
    noFrame := hall h.noFrame fun _ ⟨_, hframe, _⟩ => hframe
    fits := hall h.fits fun _ ⟨_, _, hfits⟩ => hfits _
    regs := { h.regs with } }

/-- A movement of `upc` on a running command leaves a state that meets the invariant. -/
theorem Running.moves {ops : List MicroOp} {s t : State} (h : Running ops s) (hm : Moves ops s t) : t.Inv := by
  induction hm with
  | ends s => exact h.complete rfl 0
  | returns r rest s => exact h.complete rfl _
  | raises rest s hr => exact h.abort hr
  | waits rest s w hw => exact (h.waits hw w).inv (by cases hw <;> simp [txBody, rxBody, wr, rd])
  | passes hw _ ih => exact ih (h.writes hw)

/-- A running command performs a primitive. -/
theorem Running.perform {s : State} (h : Running s.upc s) (hne : s.upc ≠ []) (r : Reply) : (perform r s).Inv := by
  obtain he | ⟨op, rest, hu, ⟨u, hw, he⟩ | ⟨ev, e, hr, he⟩⟩ := perform_cases r s
  · rw [he]; exact h.inv hne
  · rw [he]
    rw [hu] at h
    exact (h.writes hw).moves (advance_moves rest u)
  · rw [he]
    exact Running.abort (ops := s.upc) { h with regs := { h.regs with } } hr

/-- Performing a primitive keeps the invariant; a resting block has none to perform. -/
theorem perform_inv {s : State} (h : s.Inv) (r : Reply) : (perform r s).Inv := by
  obtain hrest | ⟨hne, hrun⟩ := resting_or_running h
  · obtain ⟨-, hupc, -⟩ := hrest.idle
    have hn : perform r s = s := by simp [perform, hupc]
    rw [hn]; exact h
  · exact hrun.perform hne r

/-- So does a run. -/
theorem run_inv (n : Nat) {s : State} (h : s.Inv) : (run n s).Inv :=
  run_keeps State.Inv (fun r rs s _ _ hs => perform_inv (s := { s with replies := rs }) hs r) n s h

/-! ### Accepting a command -/

/-- A field write has no part in where `LIFE` ends. -/
theorem finalLife_fieldWrite (l : Life) (a : RegAddr) (m : Byte) (v : FieldVal) (rest : List MicroOp) :
    finalLife l (fieldWrite a m v ++ rest) = finalLife l rest := by
  unfold fieldWrite
  split <;> rfl

/-- Nor has a change of mode. -/
theorem finalLife_setModeSeq (l : Life) (c : ChipMap) (m : Mode) (rest : List MicroOp) :
    finalLife l (setModeSeq c m ++ rest) = finalLife l rest := by
  rw [setModeSeq, List.append_assoc]
  exact finalLife_fieldWrite l _ _ _ _

/-- `INIT`'s micro-sequence ends in Ready (41_initialization.md R110). -/
theorem finalLife_initSeq (l : Life) (c : ChipMap) (f : BitVec 24) : finalLife l (initSeq c f) = .ready :=
  calc finalLife l (initSeq c f)
    _ = finalLife .configuring (initConfigure c f) := rfl
    _ = finalLife .configuring (fieldWrite c.reg.lna c.lnaBoostMask (.lit c.lnaBoostMask) ++ (wrLit c.reg.mc3 c.initMc3Value ++
          (setModeSeq c .standby ++ [.pin .cs .high, .setLife .ready]))) := finalLife_setModeSeq _ c .sleep _
    _ = finalLife .configuring (setModeSeq c .standby ++ [.pin .cs .high, .setLife .ready]) := finalLife_fieldWrite _ _ _ _ _
    _ = .ready := finalLife_setModeSeq _ c .standby _

/-- The must-be-zero test of a command lets a command through only. -/
theorem isCommand_of_unlessReserved {w mbz : Word} {i j : Instr} (h : unlessReserved w mbz j = .ok i)
    (hj : isCommand j = true) : isCommand i = true := by
  unfold unlessReserved at h
  split at h <;> cases h
  exact hj

/-- `SET_MODE`'s own tests do the same. -/
theorem isCommand_of_decodeSetMode {w : Word} {i : Instr} (h : decodeSetMode w = .ok i) : isCommand i = true := by
  unfold decodeSetMode at h
  split at h
  · split at h <;> cases h
    rfl
  · cases h

/-- A command word decodes to no bus frame. -/
theorem isCommand_of_decodeCommand {ws : Widths} {w : Word} {i : Instr} (h : decodeCommand ws w = .ok i) :
    isCommand i = true := by
  unfold decodeCommand at h
  split at h
  case h_4 => exact isCommand_of_decodeSetMode h
  case h_28 => cases h
  all_goals exact isCommand_of_unlessReserved h rfl

/-- A well-formed command writes `FREQ` within its width. -/
theorem freqFits_of_mayHold {i : Instr} {ws : Widths} (hw : i.wf ws = true) {op : MicroOp} (h : mayHold i op) :
    freqFits ws op = true := by
  cases op with
  | setFreq f => obtain rfl | rfl := h <;> exact hw
  | _ => rfl

/-- An accepted command runs in a state that meets the invariant. -/
theorem running_of_accept {i : Instr} {s : State} (h : Resting s) (hw : i.wf s.cfg.widths = true)
    (ha : isInit (some i) = true ∨ s.life = .ready) :
    Running (microOf s.cfg i) { s with busy := true, latch := some i } where
  busy := rfl
  latched := by simp
  init hi := by
    cases i with
    | init f => exact finalLife_initSeq _ _ f
    | _ => cases hi
  other hi := by
    refine ⟨ha.resolve_left (by simp [hi]), fun op ho => ?_⟩
    have hm := microOf_mayHold s.cfg i op ho
    cases op with
    | setLife l => simp [mayHold, hi] at hm
    | _ => rfl
  noFrame op ho := by
    have hm := microOf_mayHold s.cfg i op ho
    cases op with
    | frame f => exact hm.elim
    | _ => rfl
  fits op ho := freqFits_of_mayHold hw (microOf_mayHold s.cfg i op ho)
  regs := { h.regs with }

/-- The meaning of a command keeps the invariant at a resting block. -/
theorem exec_inv {i : Instr} {s t : State} (hc : isCommand i = true) (h : Resting s) (he : exec i s = .next t) : t.Inv := by
  obtain ⟨-, ⟨e, rfl, hne⟩ | ⟨hw, ha, rfl⟩⟩ := exec_next hc he
  · exact Resting.inv ⟨h.idle, h.life, { h.regs with status := code_mem_producedCodes hne }⟩
  · exact run_inv _ ((running_of_accept h hw ha).moves (advance_moves _ _))

/-- So does `Issue` of any word. -/
theorem issueWord_inv {w : Word} {s t : State} (h : Resting s) (he : issueWord w s = .next t) : t.Inv := by
  unfold issueWord at he
  split at he
  · next i hd => exact exec_inv (isCommand_of_decodeCommand hd) h he
  · cases he
    exact Resting.inv ⟨h.idle, h.life, { h.regs with status := by simp [Err.code, producedCodes] }⟩

/-! ### The step -/

/-- Block reset leaves the invariant whatever was before. -/
theorem blockReset_inv (s : State) : s.blockReset.Inv :=
  Resting.inv ⟨⟨rfl, rfl, rfl⟩, rfl, (by decide : (0x00 : Byte) ∈ producedCodes), rfl, rfl, Nat.two_pow_pos _⟩

/-- An idle block that meets the invariant rests. -/
theorem resting_of_idle {s : State} (h : s.Inv) (hb : s.busy = false) : Resting s := by
  obtain hrest | ⟨-, hrun⟩ := resting_or_running h
  · exact hrest
  · rw [hrun.busy] at hb; cases hb

/-- One step of a running command keeps the invariant; no frame waits there. -/
theorem resume_inv {s t : State} (h : s.Inv) (hb : s.busy = true) (he : resume s = .next t) : t.Inv := by
  obtain hrest | ⟨-, hrun⟩ := resting_or_running h
  · rw [hrest.idle.1] at hb; cases hb
  · obtain ⟨r, rs, d, rfl⟩ | ⟨f, rest, i, hu, -, -⟩ | rfl := resume_cases he
    · exact perform_inv (s := { s with replies := rs, drawn := d }) h r
    · cases hrun.noFrame (.frame f) (by simp [hu])
    · exact hrun.moves (advance_moves _ _)

/-- A host operation keeps the invariant where the block takes it. -/
theorem hostOp_inv {op : HostOp} {s t : State} (h : s.Inv) (hop : s.busy = false ∨ allowedBusy op = true)
    (he : hostOp op s = .next t) : t.Inv := by
  cases op with
  | issue w => exact issueWord_inv (resting_of_idle h (hop.resolve_right (by simp [allowedBusy]))) he
  | writeTx i b =>
    have hrest := resting_of_idle h (hop.resolve_right (by simp [allowedBusy]))
    simp only [hostOp, hostWriteTx] at he
    split at he <;> cases he
    exact Resting.inv { hrest with regs := { hrest.regs with txbuf := write_wf _ _ _ hrest.regs.txbuf } }
  | writeTxLen b => cases he; exact h
  | readReg r => cases he; exact h
  | readBuf which i =>
    simp only [hostOp, hostReadBuf] at he
    split at he
    · cases which <;> (cases he; exact h)
    · cases he
  | blockReset => cases he; exact blockReset_inv s
  | wait =>
    simp only [hostOp] at he
    split at he
    · next hb => exact resume_inv h hb he
    · cases he; exact h

/-- Settles O17: the host's operations keep the invariant where the block takes them, and a running command keeps it by the
relation of `LIFE`, the latched command and the rest of its micro-sequence (`Running`) at every movement of `upc`. -/
theorem stepKeepsInvariant : Obligations.StepKeepsInvariant := by
  unfold Obligations.StepKeepsInvariant
  intro s t h ht
  have hhost (rest : List HostOp) : State.Inv { s with host := rest } := h
  cases hb : s.busy with
  | false =>
    rw [step_idle s hb] at ht
    split at ht
    · cases ht; exact h
    · next op rest _ => exact hostOp_inv (hhost rest) (.inl hb) ht
  | true =>
    rw [step_busy s hb] at ht
    split at ht
    · exact resume_inv h hb ht
    · next op rest _ =>
      split at ht
      · next ha => exact hostOp_inv (hhost rest) (.inr ha) ht
      · exact resume_inv h hb ht

/-- Settles O16: the reset state rests, with the values of `State.reset`. -/
theorem invariantAtReset : Obligations.InvariantAtReset := by
  unfold Obligations.InvariantAtReset
  exact Resting.inv ⟨⟨rfl, rfl, rfl⟩, rfl, by decide, reset_buffers_wf.1, reset_buffers_wf.2, by decide⟩

end Sys2Proof.Machine
end

section
/-! One step of the machine: at a primitive with its outcome (O13), at a command word or a frame word (O4, O5), and at each
operation of the host port (O54). -/

namespace Sys2Proof.Machine

/-! ### One step at a primitive -/

/-- The step of a busy block at a pin operation. -/
theorem step_pin {s u : State} {p : Pin} {l : Level} {ok : Bool} {ops : List MicroOp} (hb : s.busy = true) (hw : s.HostWaits)
    (hu : s.upc = .pin p l :: ops) (ho : s.PinOutcome ok u) : step s = .next (afterPin p l ok ops u) := by
  have hupc : u.upc = .pin p l :: ops := by rw [pinOutcome_frame ho]; exact hu
  simp [step_of_hostWaits s hb hw, resume, hu, performPin_of_outcome ho, perform, hupc]

/-- The step of a busy block at the transfer of a read. -/
theorem step_recv {s u : State} {a : RegAddr} {r : Option (Byte × Byte)} {ops : List MicroOp} (hb : s.busy = true)
    (hw : s.HostWaits) (hu : s.upc = .recv a :: ops) (ho : s.XferOutcome r u) : step s = .next (afterRecv a r ops u) := by
  have hupc : u.upc = .recv a :: ops := by rw [xferOutcome_frame ho]; exact hu
  simp [step_of_hostWaits s hb hw, resume, hu, performXfer_of_outcome ho, perform, hupc]

/-- The step of a busy block at the transfer of a write. -/
theorem step_send {s u : State} {a : RegAddr} {src : ByteSrc} {r : Option (Byte × Byte)} {ops : List MicroOp}
    (hb : s.busy = true) (hw : s.HostWaits) (hu : s.upc = .send a src :: ops) (ho : s.XferOutcome r u) :
    step s = .next (afterSend a (s.byteOf src) r ops u) := by
  have hupc : u.upc = .send a src :: ops := by rw [xferOutcome_frame ho]; exact hu
  have hbyte : u.byteOf src = s.byteOf src := by
    rw [xferOutcome_frame ho]
    exact byteOf_congr rfl rfl rfl rfl rfl src
  simp [step_of_hostWaits s hb hw, resume, hu, performXfer_of_outcome ho, perform, hupc, hbyte]

/-- The step of a busy block at a delay. -/
theorem step_delay {s u : State} {n : Nat} {ops : List MicroOp} (hb : s.busy = true) (hw : s.HostWaits)
    (hu : s.upc = .delay n :: ops) (ho : s.DelayOutcome u) : step s = .next (afterDelay n ops u) := by
  have hupc : u.upc = .delay n :: ops := by rw [delayOutcome_frame ho]; exact hu
  simp [step_of_hostWaits s hb hw, resume, hu, performDelay_of_outcome ho, perform, hupc]

/-- Settles O13: each kind of primitive by its own step lemma, where what `afterPin`, `afterRecv`, `afterSend` and `afterDelay` leave
is the state written out, at a success and at a failure. -/
theorem primitiveStepGoesOnOrAborts : Obligations.PrimitiveStepGoesOnOrAborts := by
  unfold Obligations.PrimitiveStepGoesOnOrAborts
  intro s u ops hb hw
  refine ⟨fun l ok hu ho => ?_, fun l ok hu ho => ?_, fun a r hu ho => ?_, fun a src r hu ho => ?_, fun n hu ho => ?_⟩
  · have htr : u.trace = s.trace := by rw [pinOutcome_frame ho]
    rw [step_pin hb hw hu ho, ← htr]
    cases ok <;> cases l <;> rfl
  · have htr : u.trace = s.trace := by rw [pinOutcome_frame ho]
    rw [step_pin hb hw hu ho, ← htr]
    cases ok <;> cases l <;> rfl
  · have htr : u.trace = s.trace := by rw [xferOutcome_frame ho]
    have hwork : u.work = s.work := by rw [xferOutcome_frame ho]
    rw [step_recv hb hw hu ho, ← htr, ← hwork]
    cases r <;> rfl
  · have htr : u.trace = s.trace := by rw [xferOutcome_frame ho]
    rw [step_send hb hw hu ho, ← htr]
    cases r <;> rfl
  · have htr : u.trace = s.trace := by rw [delayOutcome_frame ho]
    rw [step_delay hb hw hu ho, ← htr]
    rfl

/-- Settles O4: the idle block takes `Issue(w)`, and what `w` decodes to is executed. -/
theorem stepRunsIssuedCommand : Obligations.StepRunsIssuedCommand := by
  unfold Obligations.StepRunsIssuedCommand
  intro s w rest i hb hh hd
  simp [step_idle s hb, hh, hostOp, issueWord, hd]

/-- Settles O5: with no host operation pending the busy block goes on, and stands at the frame word. -/
theorem stepRunsFrameWord : Obligations.StepRunsFrameWord := by
  unfold Obligations.StepRunsFrameWord
  intro s f ops i hb hh hu hd
  simp [step_busy s hb, hh, resume, hu, hd]

/-! ### The host port -/

/-- An idle block takes the host's next operation. -/
theorem step_host_of_idle {s : State} {op : HostOp} {rest : List HostOp} (hb : s.busy = false) (hh : s.host = op :: rest) :
    step s = hostOp op { s with host := rest } := by
  simp [step_idle s hb, hh]

/-- An operation that a busy block allows is taken at any time. -/
theorem step_host_of_allowed {s : State} {op : HostOp} {rest : List HostOp} (ha : allowedBusy op = true)
    (hh : s.host = op :: rest) : step s = hostOp op { s with host := rest } := by
  simp [step, nextStep, hh, ha]

/-- The encoding of `LIFE`, read off the list of its pairs (10_state.md R12). -/
theorem life_code_of_mem {l : Life} {v : Word}
    (h : (l, v) ∈ [(.poweredUnknown, 0), (.resetting, 1), (.versionCheck, 2), (.configuring, 3), (.ready, 4), (.failed, 5)]) :
    v = l.code := by
  cases l <;> simpa [Life.code] using h

/-- The encoding of `MODE`, read off the list of its pairs (10_state.md R14). -/
theorem mode_code_of_mem {m : Mode} {v : Word}
    (h : (m, v) ∈ [(.sleep, 0), (.standby, 1), (.transmit, 2), (.receiveContinuous, 3), (.receiveSingle, 4)]) :
    v = m.code := by
  cases m <;> simpa [Mode.code] using h

/-- The encoding of `HDR`, read off the list of its pairs (10_state.md R15). -/
theorem hdr_code_of_mem {m : HeaderMode} {v : Word} (h : (m, v) ∈ [(.explicit, 0), (.implicit, 1)]) : v = m.code := by
  cases m <;> simpa [HeaderMode.code] using h

/-- Settles O54: each operation is taken at once where the block allows it, and does what `hostOp` says. -/
theorem hostPortReadsAndWrites : Obligations.HostPortReadsAndWrites := by
  unfold Obligations.HostPortReadsAndWrites
  intro s rest
  have hin {i : Byte} (h : i.toNat < 255) : i.toNat < bufLen := h
  have hout {i : Byte} (h : i.toNat = 255) : ¬ i.toNat < bufLen := by rw [h]; decide
  refine ⟨fun i b hb hh hi => ?_, fun i b hb hh hi => ?_, fun b hb hh => ?_, fun hb hh => ?_, fun l v hh hl hv => ?_,
    fun hh => ?_, fun hb hh => ?_, fun hb hh => ?_, fun m v hb hh hm hv => ?_, fun h v hb hh hm hv => ?_, fun hb hh => ?_,
    fun hb hh => ?_, fun hb hh => ?_, fun i b hb hh hr hi => ?_, fun i b hb hh hr hi => ?_, fun which i hb hh hi => ?_⟩
  · refine ⟨{ s with host := rest, txbuf := Buffer.write s.txbuf i.toNat b }, ?_, rfl, read_write_same _ _ _ (hin hi),
      fun j hj => read_write_other _ _ _ _ hj⟩
    rw [step_host_of_idle hb hh]
    exact if_pos (hin hi)
  · rw [step_host_of_idle hb hh]
    exact if_neg (hout hi)
  · rw [step_host_of_idle hb hh]; rfl
  · rw [step_host_of_idle hb hh]
    exact if_neg (by simp [hb])
  · rw [step_host_of_allowed rfl hh]
    rw [life_code_of_mem hv, ← hl]
    rfl
  · rw [step_host_of_allowed rfl hh]; rfl
  · rw [step_host_of_idle hb hh]; rfl
  · rw [step_host_of_idle hb hh]; rfl
  · rw [step_host_of_idle hb hh, mode_code_of_mem hv, ← hm]
    rfl
  · rw [step_host_of_idle hb hh, hdr_code_of_mem hv, ← hm]
    rfl
  · rw [step_host_of_idle hb hh]; rfl
  · rw [step_host_of_idle hb hh]; rfl
  · rw [step_host_of_idle hb hh]; rfl
  · rw [step_host_of_idle hb hh]
    simp [hostOp, hostReadBuf, hin hi, State.rxAt, hr]
  · rw [step_host_of_idle hb hh]
    simp [hostOp, hostReadBuf, hin hi, State.txAt, hr]
  · rw [step_host_of_idle hb hh]
    exact if_neg (hout hi)

end Sys2Proof.Machine
end

section
/-! Two runs that differ in `STATUS`, `RESULT`, `MODE`, `FREQ` and `RXLEN` alone: every operation keeps them so, since
none reads the five (O53). -/

namespace Sys2Proof.Machine

/-- The five registers no instruction reads. -/
structure Hidden where
  status : Byte
  result : Word
  mode : Mode
  freq : BitVec 24
  rxlen : Byte

/-- The five registers of a state. -/
def State.hidden (s : State) : Hidden :=
  { status := s.status, result := s.result, mode := s.mode, freq := s.freq, rxlen := s.rxlen }

/-- A state with other values in the five registers. -/
def State.withHidden (s : State) (h : Hidden) : State :=
  { s with status := h.status, result := h.result, mode := h.mode, freq := h.freq, rxlen := h.rxlen }

@[simp] theorem withHidden_cfg (s : State) (h : Hidden) : (s.withHidden h).cfg = s.cfg := rfl
@[simp] theorem withHidden_life (s : State) (h : Hidden) : (s.withHidden h).life = s.life := rfl
@[simp] theorem withHidden_busy (s : State) (h : Hidden) : (s.withHidden h).busy = s.busy := rfl
@[simp] theorem withHidden_upc (s : State) (h : Hidden) : (s.withHidden h).upc = s.upc := rfl
@[simp] theorem withHidden_work (s : State) (h : Hidden) : (s.withHidden h).work = s.work := rfl
@[simp] theorem withHidden_replies (s : State) (h : Hidden) : (s.withHidden h).replies = s.replies := rfl

@[simp] theorem withHidden_resultOf (s : State) (h : Hidden) (r : ResultSrc) : (s.withHidden h).resultOf r = s.resultOf r := by
  cases r <;> rfl

@[simp] theorem withHidden_byteOf (s : State) (h : Hidden) (src : ByteSrc) : (s.withHidden h).byteOf src = s.byteOf src :=
  byteOf_congr rfl rfl rfl rfl rfl src

/-- How the five registers `t` and `h` of two runs stand to those, `a` and `b`, they began with: a run that has ended wrote
`STATUS` and `RESULT` the same in both, one that goes on left them alone; and each of the others is written the same in both,
or left alone. -/
structure Agree (a b : Hidden) (busy : Bool) (t h : Hidden) : Prop where
  ended : busy = false → h.status = t.status ∧ h.result = t.result
  running : busy = true → t.status = a.status ∧ h.status = b.status ∧ t.result = a.result ∧ h.result = b.result
  mode : h.mode = t.mode ∨ (t.mode = a.mode ∧ h.mode = b.mode)
  freq : h.freq = t.freq ∨ (t.freq = a.freq ∧ h.freq = b.freq)
  rxlen : h.rxlen = t.rxlen ∨ (t.rxlen = a.rxlen ∧ h.rxlen = b.rxlen)

/-- Two states that differ in the five registers at most, as two runs do that began with `a` and `b`. -/
def Twin (a b : Hidden) (t t' : State) : Prop := ∃ h, t' = t.withHidden h ∧ Agree a b t.busy t.hidden h

section
variable {a b : Hidden}

/-- Both runs complete with the same result. -/
theorem twin_complete {t : State} {h : Hidden} (ha : Agree a b t.busy t.hidden h) (r : Word) :
    Twin a b (t.complete r) ((t.withHidden h).complete r) :=
  ⟨{ h with status := statusOk, result := r }, rfl, fun _ => ⟨rfl, rfl⟩, fun hb => (by cases hb), ha.mode, ha.freq, ha.rxlen⟩

/-- Both runs abort with the same error. -/
theorem twin_abort {t : State} {h : Hidden} (ha : Agree a b t.busy t.hidden h) (e : Err) :
    Twin a b (t.abort e) ((t.withHidden h).abort e) :=
  ⟨{ h with status := e.code, result := e.info }, rfl, fun _ => ⟨rfl, rfl⟩, fun hb => (by cases hb), ha.mode, ha.freq, ha.rxlen⟩

/-- Both runs take the same branch of a test that reads none of the five. -/
theorem twin_ite {c : Prop} [Decidable c] {t t' u u' : State} (h : Twin a b t t') (h' : Twin a b u u') :
    Twin a b (if c then t else u) (if c then t' else u') := by
  split
  · exact h
  · exact h'

/-- A movement of `upc` reads none of the five. -/
theorem twin_advance (ops : List MicroOp) {t : State} {h : Hidden} (ha : Agree a b t.busy t.hidden h) :
    Twin a b (advance ops t) (advance ops (t.withHidden h)) := by
  induction ops generalizing t h with
  | nil => exact twin_complete ha 0
  | cons op rest ih =>
    cases op with
    | ret r =>
      have hc := twin_complete ha (t.resultOf r)
      rwa [← withHidden_resultOf t h r] at hc
    | pin p l => exact ⟨h, rfl, ha⟩
    | recv r => exact ⟨h, rfl, ha⟩
    | send r src => exact ⟨h, rfl, ha⟩
    | frame f => exact ⟨h, rfl, ha⟩
    | delay n => exact ⟨h, rfl, ha⟩
    | take d => cases d <;> exact ih (h := h) ha
    | setLife l => exact ih (t := { t with life := l }) (h := h) ha
    | setHdr v => exact ih (t := { t with hdr := v }) (h := h) ha
    | setMode m => exact ih (t := { t with mode := m }) (h := { h with mode := m }) { ha with mode := .inl rfl }
    | setFreq f => exact ih (t := { t with freq := f }) (h := { h with freq := f }) { ha with freq := .inl rfl }
    | setRxLen => exact ih (t := { t with rxlen := t.work.n }) (h := { h with rxlen := t.work.n }) { ha with rxlen := .inl rfl }
    | spreading => exact ih (t := { t with work := _ }) (h := h) ha
    | loadTxLen => exact ih (t := { t with work := _ }) (h := h) ha
    | clearIdx => exact ih (t := { t with work := _ }) (h := h) ha
    | nextIdx => exact ih (t := { t with work := _ }) (h := h) ha
    | clearCnt => exact ih (t := { t with work := _ }) (h := h) ha
    | checkVersion => exact twin_ite (ih ha) (twin_abort ha _)
    | bandwidth =>
      simp only [advance, withHidden_work]
      split
      · exact ih (t := { t with work := _ }) (h := h) ha
      · exact twin_abort ha _
    | txLoop => exact twin_ite ⟨h, rfl, ha⟩ (ih ha)
    | rxLoop => exact twin_ite ⟨h, rfl, ha⟩ (ih ha)
    | pollTest => exact twin_ite (ih ha) ⟨h, rfl, ha⟩
    | pollTestBounded n => exact twin_ite (ih ha) (twin_ite (twin_abort ha _) ⟨h, rfl, ha⟩)

/-- Nor does a primitive. -/
theorem twin_perform (r : Reply) {t t' : State} (hh : Twin a b t t') : Twin a b (perform r t) (perform r t') := by
  obtain ⟨h, rfl, ha⟩ := hh
  unfold perform
  simp only [withHidden_upc, withHidden_byteOf]
  split
  · next p l rest ok _ =>
    cases ok with
    | true =>
      cases p with
      | cs => exact twin_advance rest (t := (t.log _).setShadow .cs l) (h := h) ha
      | reset => exact twin_advance rest (t := (t.log _).setShadow .reset l) (h := h) ha
    | false => exact twin_abort (t := t.log _) ha (pinErr p)
  · next r rest x _ =>
    cases x with
    | some p => exact twin_advance rest (t := { t.log _ with work := _ }) (h := h) ha
    | none => exact twin_abort (t := t.log _) ha .busTransport
  · next r src rest x _ =>
    cases x with
    | some p => exact twin_advance rest (t := t.log _) (h := h) ha
    | none => exact twin_abort (t := t.log _) ha .busTransport
  · next n rest _ => exact twin_advance rest (t := t.log (.delay n)) (h := h) ha
  · exact ⟨h, rfl, ha⟩

/-- Nor does a run. -/
theorem twin_run (n : Nat) {t t' : State} (hh : Twin a b t t') : Twin a b (run n t) (run n t') := by
  induction n generalizing t t' with
  | zero => exact hh
  | succ n ih =>
    obtain ⟨h, rfl, ha⟩ := hh
    simp only [run, withHidden_replies, withHidden_upc]
    split
    · exact ⟨h, rfl, ha⟩
    · next r rs _ =>
      exact twin_ite (ih (twin_perform r (t := { t with replies := rs }) ⟨h, rfl, ha⟩)) ⟨h, rfl, ha⟩

end

/-- A run that begins now, in a block made busy. -/
theorem agree_at_start (a b : Hidden) : Agree a b true a b :=
  ⟨fun hb => (by cases hb), fun _ => ⟨rfl, rfl, rfl, rfl⟩, .inr ⟨rfl, rfl⟩, .inr ⟨rfl, rfl⟩, .inr ⟨rfl, rfl⟩⟩

/-- An error found at decode, in a block that is idle. -/
theorem twin_reject {s : State} (h : Hidden) (hb : s.busy = false) (e : Err) :
    Twin s.hidden h (s.reject e) ((s.withHidden h).reject e) :=
  ⟨{ h with status := e.code, result := e.info }, rfl, fun _ => ⟨rfl, rfl⟩, fun hb' => (by simp [hb] at hb'),
    .inr ⟨rfl, rfl⟩, .inr ⟨rfl, rfl⟩, .inr ⟨rfl, rfl⟩⟩

/-- An instruction reads none of the five. -/
theorem exec_withHidden {i : Instr} {s t : State} (h : Hidden) (he : exec i s = .next t) :
    ∃ t', exec i (s.withHidden h) = .next t' ∧ Twin s.hidden h t t' := by
  cases hc : isCommand i with
  | true =>
    rw [exec_command i _ hc] at he ⊢
    split at he
    · cases he
    · next hb =>
      split at he
      · next hw =>
        cases he
        exact ⟨_, (if_neg hb).trans (if_pos hw), twin_reject h (by simpa using hb) _⟩
      · next hw =>
        split at he
        · next hr =>
          cases he
          exact ⟨_, (if_neg hb).trans ((if_neg hw).trans (if_pos hr)),
            twin_run _ (twin_advance _ (t := { s with busy := true, latch := some i }) (agree_at_start _ h))⟩
        · next hr =>
          cases he
          exact ⟨_, (if_neg hb).trans ((if_neg hw).trans (if_neg hr)), twin_reject h (by simpa using hb) _⟩
  | false =>
    rw [exec_frame i _ hc] at he ⊢
    cases he
    exact ⟨_, rfl, twin_run 3 (twin_advance _ (t := { s with busy := true }) (agree_at_start _ h))⟩

/-- Settles O53: the two runs stay twins (`Twin`), whose five registers stand as the statement says (`Agree`). -/
theorem hiddenRegistersAreNeverRead : Obligations.HiddenRegistersAreNeverRead := by
  unfold Obligations.HiddenRegistersAreNeverRead
  intro i s t st r m f n he
  obtain ⟨t', he', h, rfl, ended, running, hmode, hfreq, hrxlen⟩ :=
    exec_withHidden { status := st, result := r, mode := m, freq := f, rxlen := n } he
  exact ⟨_, he', rfl, ended, running, hmode, hfreq, hrxlen⟩

end Sys2Proof.Machine
end

section
/-! `FieldWrite` as one run lemma for each of its two forms (20_memory.md R46), and O11. -/

namespace Sys2Proof.Machine

/-- A byte read into `T` is one more change of the working registers. -/
theorem store_regT_saw (s : State) (w : Work) (evs : List Event) (rest : List Reply) (b : Byte) :
    (s.saw w evs rest).store .regT b = s.saw { w with t := b } evs rest := rfl

/-- Transactions that keep the two values `UpdateLdo` has read keep the value of every field write. -/
theorem fieldVal_saw (s : State) {w : Work} (evs : List Event) (rest : List Reply) (v : FieldVal) (hsf : w.sf = s.work.sf)
    (hhz : w.hz = s.work.hz) : (s.saw w evs rest).fieldVal v = s.fieldVal v := by
  cases v with
  | lit b => rfl
  | header => rfl
  | ldo => simp [State.fieldVal, hsf, hhz]

/-- With every bit in its mask a `FieldWrite` is one direct write. -/
theorem run_fieldWrite_direct (k : Nat) (s : State) (a : RegAddr) (v : FieldVal) (p : Byte × Byte) (ops : List MicroOp)
    (rest : List Reply) (hk : 3 ≤ k) (hr : s.replies = txn p ++ rest) :
    run k (advance (fieldWrite a 0xFF#8 v ++ ops) s) =
      run (k - 3) (advance ops (s.saw s.work (wrEv a (s.fieldVal v) p) rest)) :=
  run_wr k s a (.direct v) p ops rest hk hr

/-- With any other mask it is a read into `T` and a write that keeps the bits of `T` outside the mask. -/
theorem run_fieldWrite_merged (k : Nat) (s : State) (a : RegAddr) {mask : Byte} (v : FieldVal) (p q : Byte × Byte)
    (ops : List MicroOp) (rest : List Reply) (hm : mask ≠ 0xFF#8) (hk : 6 ≤ k) (hr : s.replies = txn p ++ (txn q ++ rest)) :
    run k (advance (fieldWrite a mask v ++ ops) s) =
      run (k - 6) (advance ops (s.saw { s.work with rx := p.2, t := p.2 }
        (rdEv a p ++ wrEv a ((p.2 &&& ~~~mask) ||| s.fieldVal v) q) rest)) := by
  rw [fieldWrite, if_neg hm, List.append_assoc, run_rd k s a .regT p _ _ (by omega) hr, store_regT_saw,
    run_wr (k - 3) _ a (.merged mask v) q ops rest (by omega) rfl, saw_saw, State.byteOf, fieldVal_saw s]
  all_goals rfl

/-- Settles O11: each form of `FieldWrite` is its run lemma, with exactly its primitives counted. -/
theorem fieldWriteKeepsOtherBits : Obligations.FieldWriteKeepsOtherBits := by
  unfold Obligations.FieldWriteKeepsOtherBits
  intro s a mask v ops rest p q n
  refine ⟨fun hm hr => ?_, fun hm hr => ?_⟩
  · subst hm
    exact run_fieldWrite_direct (n + 3) s a v p ops rest (by omega) hr
  · exact run_fieldWrite_merged (n + 6) s a v p q ops rest hm (by omega) hr

end Sys2Proof.Machine
end

section
/-! Decoding and encoding (30_encoding.md R70 to R77): a command word is its opcode and its operand field, an operand is read back
as it was written, and the must-be-zero test of an operand of `k` bits says that its field stays below bit `k` (O1, O2, O3). -/

namespace Sys2Proof

/-! ### The fields of a command word -/

/-- The operand field, bits 23:0 of the command word (R73). -/
def operandOf (w : Word) : BitVec 24 := w.extractLsb' 0 24

/-- A command word is its opcode and its operand field. -/
theorem opcodeOf_append_operandOf (w : Word) : opcodeOf w ++ operandOf w = w := BitVec.extractLsb'_append_extractLsb'

@[simp] theorem opcodeOf_append (op : Byte) (y : BitVec 24) : opcodeOf (op ++ y) = op := BitVec.extractLsb'_append_eq_left

@[simp] theorem operandOf_append (op : Byte) (y : BitVec 24) : operandOf (op ++ y) = y := BitVec.extractLsb'_append_eq_right

/-- What lies inside the operand field is read from it. -/
theorem extractLsb'_operandOf {start len : Nat} (h : start + len ≤ 24) (w : Word) :
    (operandOf w).extractLsb' start len = w.extractLsb' start len := BitVec.extractLsb'_extractLsb'_of_le h

/-- Bits of an operand are read from the word as they were written into its field. -/
theorem extractLsb'_append_setWidth {start len n : Nat} (h : start + len ≤ 24) (op : Byte) (x : BitVec n) :
    (op ++ x.setWidth 24).extractLsb' start len = x.extractLsb' start len := by
  rw [BitVec.extractLsb'_append_eq_of_add_le h, BitVec.extractLsb'_setWidth_of_le h]

/-- A field that stays below bit `n` is its lowest `n` bits. -/
theorem setWidth_extractLsb'_of_lt {n : Nat} (hn : n ≤ 24) {w : Word} (h : (operandOf w).toNat < 2 ^ n) :
    (w.extractLsb' 0 n).setWidth 24 = operandOf w := by
  rw [← extractLsb'_operandOf (by omega)]
  apply BitVec.eq_of_toNat_eq
  rw [BitVec.toNat_setWidth_of_le hn, BitVec.extractLsb'_toNat, Nat.shiftRight_zero, Nat.mod_eq_of_lt h]

/-! ### The must-be-zero test -/

/-- Bit `i` of the must-be-zero mask of an operand of `k` bits. -/
theorem getLsbD_mbzAbove (k i : Nat) : (mbzAbove k).getLsbD i = (decide (i < 24) && decide (k ≤ i)) := by
  simp only [mbzAbove, BitVec.getLsbD_setWidth, BitVec.getLsbD_shiftLeft, BitVec.getLsbD_allOnes]
  grind

/-- No must-be-zero bit is set exactly when the operand field stays below bit `k`. -/
theorem and_mbzAbove_eq_zero (w : Word) (k : Nat) : w &&& mbzAbove k = 0 ↔ (operandOf w).toNat < 2 ^ k := by
  have hbit (i : Nat) : (w &&& mbzAbove k).getLsbD i = ((operandOf w).toNat.testBit i && decide (k ≤ i)) := by
    rw [BitVec.testBit_toNat, operandOf, BitVec.getLsbD_extractLsb', BitVec.getLsbD_and, getLsbD_mbzAbove, Nat.zero_add]
    ac_rfl
  constructor
  · intro h
    refine Nat.lt_pow_two_of_testBit _ fun i hi => ?_
    simpa [h, hi] using (hbit i).symm
  · intro h
    refine BitVec.eq_of_getLsbD_eq fun i _ => ?_
    rw [hbit]
    by_cases hi : k ≤ i
    · simp [Nat.testBit_lt_two_pow (h.trans_le (Nat.pow_le_pow_right (by decide) hi))]
    · simp [hi]

/-- What the must-be-zero test lets through. -/
theorem unlessReserved_eq_ok {w mbz : Word} {i j : Instr} : unlessReserved w mbz j = .ok i ↔ w &&& mbz = 0 ∧ j = i := by
  unfold unlessReserved
  split <;> simp_all

/-- What the tests of `SET_MODE` let through: no must-be-zero bit, and an operand the encoding admits. -/
theorem decodeSetMode_eq_ok {w : Word} {i : Instr} :
    decodeSetMode w = .ok i ↔
      w &&& mbzAbove 3 = 0 ∧ (w.extractLsb' 0 3).toNat ≤ 4 ∧ .setMode (w.extractLsb' 0 3) = i := by
  have hmbz : mbzAbove 3 = 0x00FFFFF8#32 := by decide
  unfold decodeSetMode
  rw [hmbz]
  split
  · split <;> simp_all
  · simp_all

/-! ### Decoding what was encoded -/

/-- A field of `n` bits holding an operand of `n` bits passes the test of its width. -/
theorem append_setWidth_and_mbzAbove {n : Nat} (hn : n ≤ 24) (op : Byte) (x : BitVec n) :
    (op ++ x.setWidth 24) &&& mbzAbove n = 0 := by
  rw [and_mbzAbove_eq_zero, operandOf_append, BitVec.toNat_setWidth_of_le hn]
  exact x.isLt

/-- So the decoder takes it. -/
theorem unlessReserved_append_setWidth {n : Nat} (hn : n ≤ 24) (op : Byte) (x : BitVec n) (i : Instr) :
    unlessReserved (op ++ x.setWidth 24) (mbzAbove n) i = .ok i :=
  unlessReserved_eq_ok.mpr ⟨append_setWidth_and_mbzAbove hn op x, rfl⟩

/-- An operand of an open width fills the field and passes the test of that width if it keeps to it. -/
theorem unlessReserved_append {k : Nat} (op : Byte) {y : BitVec 24} (h : y.toNat < 2 ^ k) (i : Instr) :
    unlessReserved (op ++ y) (mbzAbove k) i = .ok i :=
  unlessReserved_eq_ok.mpr ⟨(and_mbzAbove_eq_zero _ k).mpr (by rwa [operandOf_append]), rfl⟩

/-! ### Encoding what was decoded -/

/-- A word is the command word of its opcode and its operand field. -/
theorem commandWord_operandOf {w : Word} {op : Byte} (hop : opcodeOf w = op) : commandWord op (operandOf w) = .command w := by
  rw [← hop, commandWord, opcodeOf_append_operandOf]

/-- An operand of `n` bits is all of its field, where the field passes the test. -/
theorem commandWord_extractLsb' {w : Word} {op : Byte} {n : Nat} (hop : opcodeOf w = op) (hz : w &&& mbzAbove n = 0)
    (hn : n ≤ 24) : commandWord op ((w.extractLsb' 0 n).setWidth 24) = .command w := by
  rw [setWidth_extractLsb'_of_lt hn ((and_mbzAbove_eq_zero w n).mp hz), commandWord_operandOf hop]

/-- Without an operand the field is 0. -/
theorem commandWord_zero {w : Word} {op : Byte} (hop : opcodeOf w = op) (hz : w &&& mbzAbove 0 = 0) :
    commandWord op 0 = .command w := by
  rw [← commandWord_extractLsb' hop hz (by decide), BitVec.extractLsb'_eq_zero]
  rfl

/-- A command word that decodes is the encoding of a well-formed command. -/
theorem encode_of_decodeCommand {ws : Widths} {w : Word} {i : Instr} (h : decodeCommand ws w = .ok i) :
    WellFormed ws i ∧ encode i = .command w := by
  unfold decodeCommand at h
  split at h
  case h_28 => cases h
  case h_4 hop =>
    obtain ⟨hz, hm, rfl⟩ := decodeSetMode_eq_ok.mp h
    exact ⟨decide_eq_true hm, commandWord_extractLsb' hop hz (by decide)⟩
  all_goals obtain ⟨hz, rfl⟩ := unlessReserved_eq_ok.mp h
  case h_2 hop =>
    refine ⟨rfl, ?_⟩
    rw [encode, BitVec.extractLsb'_append_extractLsb'_eq_extractLsb' (show 8 = 0 + 8 from rfl)]
    exact commandWord_extractLsb' hop hz (by decide)
  case h_3 hop | h_6 hop | h_23 hop =>
    exact ⟨decide_eq_true ((and_mbzAbove_eq_zero _ _).mp hz), commandWord_operandOf hop⟩
  case h_8 hop => exact ⟨rfl, commandWord_operandOf hop⟩
  case h_1 hop | h_5 hop | h_7 hop | h_9 hop | h_10 hop | h_11 hop | h_12 hop | h_13 hop | h_14 hop =>
    exact ⟨rfl, commandWord_extractLsb' hop hz (by decide)⟩
  all_goals exact ⟨rfl, commandWord_zero ‹_› hz⟩

/-! ### Bus frames -/

/-- Byte 0 of a read frame is the direction bit 0 and the address. -/
theorem readHeader_eq (a : RegAddr) : readHeader a = 0#1 ++ a := by revert a; decide

/-- Byte 0 of a write frame is the direction bit 1 and the address. -/
theorem writeHeader_eq (a : RegAddr) : writeHeader a = 1#1 ++ a := by revert a; decide

/-- A frame is its direction bit, its address and its data byte (R70). -/
theorem frame_eq_append (f : FrameWord) : (f.extractLsb' 15 1 ++ f.extractLsb' 8 7) ++ f.extractLsb' 0 8 = f := by
  rw [BitVec.extractLsb'_append_extractLsb'_eq_extractLsb' (show 15 = 8 + 7 from rfl),
    BitVec.extractLsb'_append_extractLsb'_eq_extractLsb' (show 8 = 0 + 8 from rfl)]
  exact BitVec.extractLsb'_eq_self

/-- The decoder of frames on the fields of a frame. -/
theorem decodeFrame_append (b : BitVec 1) (a : RegAddr) (d : Byte) :
    decodeFrame ((b ++ a) ++ d) =
      if b = 1#1 then .ok (.busWriteFrame a d) else if d = 0#8 then .ok (.busReadFrame a) else .error .readFrameData := by
  have hdir : ((b ++ a) ++ d).getLsbD 15 = (b == 1#1) := by
    rw [BitVec.getLsbD_eq_extractLsb', BitVec.extractLsb'_append_eq_of_le (by decide), BitVec.extractLsb'_append_eq_left]
  have haddr : ((b ++ a) ++ d).extractLsb' 8 7 = a := by
    rw [BitVec.extractLsb'_append_eq_of_le (by decide), BitVec.extractLsb'_append_eq_right]
  simp only [decodeFrame, hdir, haddr, BitVec.extractLsb'_append_eq_right, beq_iff_eq]

/-- A frame that decodes is the encoding of a well-formed bus frame. -/
theorem encode_of_decodeFrame {ws : Widths} {f : FrameWord} {i : Instr} (h : decodeFrame f = .ok i) :
    WellFormed ws i ∧ encode i = .frame f := by
  rw [← frame_eq_append f, decodeFrame_append] at h
  obtain hdir | hdir := BitVec.eq_zero_or_eq_one (f.extractLsb' 15 1)
  · rw [if_neg (by simp [hdir])] at h
    split at h <;> cases h
    next hdata => exact ⟨rfl, by rw [encode, readHeader_eq, ← hdir, ← hdata, frame_eq_append]⟩
  · rw [if_pos hdir] at h
    cases h
    exact ⟨rfl, by rw [encode, writeHeader_eq, ← hdir, frame_eq_append]⟩

/-! ### The round trips -/

/-- Settles O1: the opcode leads to the command's own row, whose test the operand passes and from whose field it is read back;
a frame has its direction bit, address and byte in place. -/
theorem decodeOfEncode : Obligations.DecodeOfEncode := by
  unfold Obligations.DecodeOfEncode
  intro ws i hw
  cases i
  case busReadFrame a => rw [encode, decode, readHeader_eq, decodeFrame_append]; rfl
  case busWriteFrame a d => rw [encode, decode, writeHeader_eq, decodeFrame_append]; rfl
  all_goals simp only [encode, commandWord, decode, decodeCommand, opcodeOf_append, BitVec.ofNat_eq_ofNat]
  case setMode m =>
    rw [decodeSetMode_eq_ok, extractLsb'_append_setWidth (by decide), BitVec.extractLsb'_eq_self]
    exact ⟨append_setWidth_and_mbzAbove (by decide) _ m, of_decide_eq_true hw, rfl⟩
  case wrReg a v =>
    rw [extractLsb'_append_setWidth (by decide), extractLsb'_append_setWidth (by decide), BitVec.extractLsb'_append_eq_left,
      BitVec.extractLsb'_append_eq_right]
    exact unlessReserved_append_setWidth (by decide) _ _ _
  case init | setFrequency | pollIrqT =>
    rw [BitVec.extractLsb'_append_eq_right]
    exact unlessReserved_append _ (of_decide_eq_true hw) _
  case setBw hz =>
    rw [BitVec.extractLsb'_append_eq_right]
    exact unlessReserved_append _ hz.isLt _
  case rdReg | setHeader | setSf | setCr | setPreamble | setCrc | setInvertIq | setTxPower | setOcp =>
    rw [extractLsb'_append_setWidth (by decide), BitVec.extractLsb'_eq_self]
    exact unlessReserved_append_setWidth (by decide) _ _ _
  all_goals rfl

/-- Settles O2: an accepted word has the opcode of its row, and by the row's test nothing but the operand in its field. -/
theorem encodeOfDecode : Obligations.EncodeOfDecode := by
  unfold Obligations.EncodeOfDecode
  intro ws c i h
  cases c with
  | command w => exact encode_of_decodeCommand h
  | frame f => exact encode_of_decodeFrame h

/-- Settles O3: the decoder's value at each of the words. -/
theorem specWordsDecode : Obligations.SpecWordsDecode := by
  unfold Obligations.SpecWordsDecode
  decide

end Sys2Proof
end

section
/-! Progress (O18): what the machine has no meaning for is a command at a busy block, a raw frame word that is no frame, and byte
255 of a buffer. A state that meets the invariant comes to none of the first two. -/

namespace Sys2Proof.Machine

/-- At an idle block the meaning of every command answers. -/
theorem exec_answers {i : Instr} {s : State} (hc : isCommand i = true) (hb : s.busy = false) : ∃ t, exec i s = .next t := by
  rw [exec_command i s hc, if_neg (by simp [hb])]
  split
  · exact ⟨_, rfl⟩
  · split <;> exact ⟨_, rfl⟩

/-- So does `Issue` of any word, whether or not it decodes. -/
theorem issueWord_answers (w : Word) {s : State} (hb : s.busy = false) : ∃ t, issueWord w s = .next t := by
  unfold issueWord
  split
  · next i hd => exact exec_answers (isCommand_of_decodeCommand hd) hb
  · exact ⟨_, rfl⟩

/-- A running command with no raw frame waiting goes on: every primitive returns. -/
theorem resume_answers {s : State} (h : ∀ op ∈ s.upc, isFrame op = false) : ∃ t, resume s = .next t := by
  unfold resume
  split
  case h_5 f rest hu => cases h (.frame f) (by simp [hu])
  all_goals exact ⟨_, rfl⟩

/-- The invariant lets no raw frame wait. -/
theorem State.Inv.noFrame {s : State} (h : s.Inv) : ∀ op ∈ s.upc, isFrame op = false := by
  obtain hrest | ⟨-, hrun⟩ := resting_or_running h
  · obtain ⟨-, hupc, -⟩ := hrest.idle
    simp [hupc]
  · exact hrun.noFrame

/-- The host operation names a byte the buffers have, if it names one. -/
def HostOp.bufferByteExists : HostOp → Prop
  | .writeTx i _ => i.toNat < bufLen
  | .readBuf _ i => i.toNat < bufLen
  | _ => True

/-- A host operation answers where the block takes it. -/
theorem hostOp_answers {op : HostOp} {s : State} (hf : ∀ o ∈ s.upc, isFrame o = false)
    (hop : s.busy = false ∨ allowedBusy op = true) (hbyte : op.bufferByteExists) : ∃ t, hostOp op s = .next t := by
  cases op with
  | issue w => exact issueWord_answers w (hop.resolve_right (by simp [allowedBusy]))
  | writeTx i b => exact ⟨_, if_pos hbyte⟩
  | writeTxLen b => exact ⟨_, rfl⟩
  | readReg r => exact ⟨_, rfl⟩
  | readBuf which i => cases which <;> exact ⟨_, if_pos hbyte⟩
  | blockReset => exact ⟨_, rfl⟩
  | wait =>
    simp only [hostOp]
    split
    · exact resume_answers hf
    · exact ⟨_, rfl⟩

/-- Settles O18: an idle block takes what the host does next, and a running command performs its next primitive. -/
theorem stepAlwaysAnswers : Obligations.StepAlwaysAnswers := by
  unfold Obligations.StepAlwaysAnswers
  intro s h hwrite hread
  have hf := h.noFrame
  have hbyte {op : HostOp} {rest : List HostOp} (hh : s.host = op :: rest) : op.bufferByteExists := by
    cases op with
    | writeTx i b => exact hwrite i b rest hh
    | readBuf which i => exact hread which i rest hh
    | _ => trivial
  cases hb : s.busy with
  | false =>
    rw [step_idle s hb]
    split
    · exact ⟨_, rfl⟩
    · next op rest hh => exact hostOp_answers (s := { s with host := rest }) hf (.inl hb) (hbyte hh)
  | true =>
    rw [step_busy s hb]
    split
    · exact resume_answers hf
    · next op rest hh =>
      split
      · next ha => exact hostOp_answers (s := { s with host := rest }) hf (.inr ha) (hbyte hh)
      · exact resume_answers hf

end Sys2Proof.Machine
end

section
/-! The arithmetic of the operands: the frequency word in three bytes (O55), the bandwidth index (O57), the mode byte (O59). -/

namespace Sys2Proof.Machine

/-! ### The frequency word (30_encoding.md R78) -/

/-- The division of R78 is exact. -/
theorem frf_eq_mul (n : Nat) : n * 2 ^ 19 / 32 = n * 2 ^ 14 := by omega

/-- The three bytes of a 24-bit word rebuild it. -/
theorem toNat_eq_three_bytes (v : BitVec 24) :
    (v.extractLsb' 16 8).toNat * 2 ^ 16 + (v.extractLsb' 8 8).toNat * 2 ^ 8 + (v.extractLsb' 0 8).toNat = v.toNat := by
  simp only [BitVec.extractLsb'_toNat, Nat.shiftRight_eq_div_pow]
  omega

/-- The word is `f · 2^14`, as far as 24 bits hold it. -/
theorem toNat_frf24 (f : BitVec 24) : (frf24 f).toNat = f.toNat * 2 ^ 14 % 2 ^ 24 := by
  rw [frf24, frf_eq_mul, BitVec.toNat_ofNat]

/-- Its low byte has no part of `f`. -/
theorem toNat_frfLsb (f : BitVec 24) : (frfLsb f).toNat = 0 := by
  rw [frfLsb, BitVec.extractLsb'_toNat, toNat_frf24, Nat.shiftRight_zero]
  omega

/-- Its middle byte has two bits of `f`, at its top. -/
theorem toNat_frfMid (f : BitVec 24) : (frfMid f).toNat = f.toNat * 2 ^ 6 % 2 ^ 8 := by
  rw [frfMid, BitVec.extractLsb'_toNat, toNat_frf24, Nat.shiftRight_eq_div_pow]
  omega

/-- Settles O55: the word is `f · 2^14` modulo 2^24, which `f · 2^14` does not reach for a 10-bit `f`. -/
theorem frequencyBytesRebuildWord : Obligations.FrequencyBytesRebuildWord := by
  unfold Obligations.FrequencyBytesRebuildWord
  intro f
  have hword : (frfMsb f).toNat * 2 ^ 16 + (frfMid f).toNat * 2 ^ 8 + (frfLsb f).toNat = f.toNat * 2 ^ 14 % 2 ^ 24 :=
    (toNat_eq_three_bytes (frf24 f)).trans (toNat_frf24 f)
  rw [hword, toNat_frfMid, frf_eq_mul]
  exact ⟨rfl, fun hf => by omega, rfl, by omega, BitVec.eq_of_toNat_eq (toNat_frfLsb f), by omega⟩

/-! ### The bandwidth index (30_encoding.md R81) -/

/-- An operand is the bandwidth at its index, or its index is 9 and the table does not have it. -/
theorem bwIndex_cases (hz : BitVec 24) :
    (bwIndex hz < 9 ∧ bwHz (bwIndex hz) = some hz.toNat) ∨ (bwIndex hz = 9 ∧ hz.toNat ∉ bwTable) := by
  unfold bwIndex
  cases h : bwTable.idxOf? hz.toNat with
  | none => exact .inr ⟨rfl, List.idxOf?_eq_none_iff.mp h⟩
  | some i =>
    obtain ⟨hi, hget, -⟩ := List.idxOf?_eq_some_iff.mp h
    exact .inl ⟨hi, List.getElem?_eq_some_iff.mpr ⟨hi, hget⟩⟩

/-- Settles O57: the table's nine values by evaluation, the rest by the two kinds of operand (`bwIndex_cases`). -/
theorem bandwidthIndexIsExact : Obligations.BandwidthIndexIsExact := by
  unfold Obligations.BandwidthIndexIsExact
  refine ⟨fun hz i h => ?_, fun hz => ?_, fun hz => ?_, fun hz h => ?_, fun i hi => ?_⟩
  · simp only [List.mem_cons, Prod.mk.injEq, List.not_mem_nil, or_false] at h
    rcases h with ⟨h, rfl⟩ | ⟨h, rfl⟩ | ⟨h, rfl⟩ | ⟨h, rfl⟩ | ⟨h, rfl⟩ | ⟨h, rfl⟩ | ⟨h, rfl⟩ | ⟨h, rfl⟩ | ⟨h, rfl⟩
    all_goals rw [bwIndex, h]; decide
  · obtain ⟨h, -⟩ | ⟨h, -⟩ := bwIndex_cases hz <;> omega
  · obtain ⟨h, hget⟩ | ⟨h, hn⟩ := bwIndex_cases hz
    · exact iff_of_false (by omega) (not_not_intro (List.mem_of_getElem? hget))
    · exact iff_of_true h hn
  · obtain ⟨-, hget⟩ | ⟨h', -⟩ := bwIndex_cases hz
    · exact hget
    · omega
  · exact List.getElem?_eq_none (Nat.succ_le_of_lt hi)

/-! ### The mode byte (30_encoding.md R79) -/

/-- Bits inside a mask are kept by it. -/
theorem and_eq_self_of_and_not_eq_zero {b mask : Byte} (h : b &&& ~~~mask = 0) : b &&& mask = b := by
  ext i hi
  have hbit := congrArg (·[i]) h
  simpa using hbit

/-- A value is kept by itself with further bits. -/
theorem and_self_or (a b : Byte) : a &&& (a ||| b) = a := by
  ext i hi
  simpa using Or.inl

/-- One bit is not none. -/
theorem ne_zero_of_oneBit {b : Byte} (h : oneBit b = true) : b ≠ 0 := by
  rintro rfl
  exact absurd h (by decide)

/-- An admissible chip map keeps the long-range bit outside the mode mask and every mode's bits inside it (00_scope.md R6). -/
theorem modeBits_of_admissible {c : ChipMap} (h : c.Admissible) (m : Mode) :
    oneBit c.lrBit = true ∧ c.lrBit &&& c.modeMask = 0 ∧ modeBitsOf c m &&& ~~~c.modeMask = 0 := by
  simp only [ChipMap.Admissible, ChipMap.masksOk, ModeBits.ok, Bool.and_eq_true, decide_eq_true_eq, List.all_eq_true, and_assoc] at h
  obtain ⟨hone, hlr, -, hinside, -⟩ := h
  exact ⟨hone, hlr, hinside _ (by cases m <;> simp [modeBitsOf])⟩

/-- Settles O59: the long-range bit lies outside the mode mask and the mode's bits inside it, so neither disturbs the other. -/
theorem modeByteKeepsLongRangeBit : Obligations.ModeByteKeepsLongRangeBit := by
  unfold Obligations.ModeByteKeepsLongRangeBit
  intro c
  refine ⟨rfl, rfl, rfl, rfl, rfl, fun h m => ?_⟩
  obtain ⟨hone, houtside, hinside⟩ := modeBits_of_admissible h m
  refine ⟨?_, ?_, ?_⟩
  · simp [modeByte, BitVec.and_or_distrib_right, houtside, and_eq_self_of_and_not_eq_zero hinside]
  · rw [modeByte, BitVec.and_comm, and_self_or]
    exact ne_zero_of_oneBit hone
  · have hneither : modeBitsOf c m &&& (~~~c.lrBit &&& ~~~c.modeMask) = 0 := by
      rw [BitVec.and_comm (~~~c.lrBit), ← BitVec.and_assoc, hinside]
      simp
    simp [modeByte, BitVec.and_or_distrib_right, BitVec.not_or, ← BitVec.and_assoc c.lrBit, hneither]

end Sys2Proof.Machine
end

section
/-! A command at a ready block from acceptance to completion: that its micro-sequence starts, that it is over where no micro-step
is left, and the two commands of the Register Access Layer (40_register_access.md R100, R101; O21, O22). -/

namespace Sys2Proof.Machine

/-- A ready block accepts every well-formed command (30_encoding.md R75). -/
theorem exec_of_ready {i : Instr} {s : State} (hc : isCommand i = true) (hw : i.wf s.cfg.widths = true) (h : s.Ready) :
    exec i s = .next (s.start i (microOf s.cfg i)) := by
  obtain ⟨⟨hb, -, -⟩, hl⟩ := h
  simp [exec_command i s hc, hb, hw, hl]

/-- An accepted command starts with nothing seen and all replies at hand. -/
theorem start_eq_run_saw {s : State} (i : Instr) (ops : List MicroOp) {replies : List Reply} (hr : s.replies = replies) :
    s.start i ops =
      run replies.length (advance ops (State.saw { s with busy := true, latch := some i } s.work [] replies)) := by
  subst hr
  exact congrArg (run _ <| advance ops ·) (saw_nil { s with busy := true, latch := some i }).symm

/-- A micro-sequence that delivers its result is over, whatever replies are left. -/
theorem run_advance_ret (n : Nat) (r : ResultSrc) (ops : List MicroOp) (s : State) :
    run n (advance (.ret r :: ops) s) = s.complete (s.resultOf r) :=
  run_of_upc_nil n _ rfl

/-- So is one with no micro-step left. -/
theorem run_advance_nil (n : Nat) (s : State) : run n (advance [] s) = s.complete 0 :=
  run_of_upc_nil n _ rfl

/-- An accepted micro-sequence of one read that delivers the byte. -/
theorem start_rd_ret {s : State} (i : Instr) (a : RegAddr) (p : Byte × Byte) (rest : List Reply) (h : s.Idle)
    (hr : s.replies = txn p ++ rest) :
    s.start i (rd a .regT ++ [.ret .regT]) =
      s.done (p.2.setWidth 32) { s.work with rx := p.2, t := p.2 } (rdEv a p) rest := by
  rw [start_eq_run_saw i _ hr, rd_step, store_regT_saw, run_advance_ret, complete_saw s _ _ _ _ _ h]
  rfl

/-- An accepted micro-sequence of one write of a known byte. -/
theorem start_wrLit {s : State} (i : Instr) (a : RegAddr) (v : Byte) (p : Byte × Byte) (rest : List Reply) (h : s.Idle)
    (hr : s.replies = txn p ++ rest) : s.start i (wrLit a v) = s.done 0 s.work (wrEv a v p) rest := by
  rw [start_eq_run_saw i _ hr, wrLit, ← List.append_nil (wr a _), wr_step, run_advance_nil, complete_saw s _ _ _ _ _ h]
  rfl

/-- Settles O21: a ready block accepts `RD_REG`, whose micro-sequence is one read that delivers the byte. -/
theorem rdRegDeliversByte : Obligations.RdRegDeliversByte := by
  unfold Obligations.RdRegDeliversByte
  intro s a p rest h hr
  have haccept := exec_of_ready (i := .rdReg a) rfl rfl h
  have hend := start_rd_ret (.rdReg a) a p rest h.1 hr
  exact ⟨_, haccept.trans (congrArg _ hend)⟩

/-- Settles O22: a ready block accepts `WR_REG`, whose micro-sequence is one write and no assignment to a cache. -/
theorem wrRegUpdatesNoCache : Obligations.WrRegUpdatesNoCache := by
  unfold Obligations.WrRegUpdatesNoCache
  intro s a v p rest h hr
  have haccept := exec_of_ready (i := .wrReg a v) rfl rfl h
  have hend := start_wrLit (.wrReg a v) a v p rest h.1 hr
  exact ⟨_, haccept.trans (congrArg _ hend)⟩

end Sys2Proof.Machine
end

section
/-! Runs of field writes that succeed, whatever has happened before them: the field writes a stretch of micro-steps performs, the
registers it leaves, and the joining of two stretches (20_memory.md R46, 42_mode_config.md R120 to R124). -/

namespace Sys2Proof.Machine

/-! ### Field-write lists -/

theorem script_append (ps qs : List (Byte × Byte)) : script (ps ++ qs) = script ps ++ script qs := by
  induction ps with
  | nil => rfl
  | cons p ps ih => simp [script, ih]

theorem fieldTxns_append (ts us : List FieldTriple) : fieldTxns (ts ++ us) = fieldTxns ts + fieldTxns us := by
  induction ts with
  | nil => simp [fieldTxns]
  | cons t ts ih => simp [fieldTxns, ih, Nat.add_assoc]

/-- The answers of a field-write list are those of its first entry, one or two, and those of the others. -/
theorem answers_of_fieldTxns_cons {t : FieldTriple} {ts : List FieldTriple} {ps : List (Byte × Byte)}
    (h : ps.length = fieldTxns (t :: ts)) :
    (t.mask = 0xFF#8 ∧ ∃ p qs, ps = p :: qs ∧ qs.length = fieldTxns ts) ∨
      (t.mask ≠ 0xFF#8 ∧ ∃ p q qs, ps = p :: q :: qs ∧ qs.length = fieldTxns ts) := by
  rw [fieldTxns] at h
  split at h
  · next hm =>
    obtain ⟨p, qs, rfl⟩ := List.exists_cons_of_length_eq_add_one (h.trans (Nat.add_comm _ _))
    exact .inl ⟨hm, p, qs, rfl, by simpa [Nat.add_comm] using h⟩
  · next hm =>
    rcases ps with _ | ⟨p, _ | ⟨q, qs⟩⟩ <;> simp only [List.length_cons, List.length_nil] at h
    · omega
    · omega
    · exact .inr ⟨hm, p, q, qs, rfl, by omega⟩

/-- The events of a list and of another behind it, each with its own answers. -/
theorem fieldEvents_append {ts : List FieldTriple} {ps : List (Byte × Byte)} (h : ps.length = fieldTxns ts)
    (us : List FieldTriple) (qs : List (Byte × Byte)) :
    fieldEvents (ts ++ us) (ps ++ qs) = fieldEvents ts ps ++ fieldEvents us qs := by
  induction ts generalizing ps with
  | nil => simp [List.eq_nil_of_length_eq_zero h, fieldEvents]
  | cons t ts ih =>
    obtain ⟨hm, p, rs, rfl, hrs⟩ | ⟨hm, p, q, rs, rfl, hrs⟩ := answers_of_fieldTxns_cons h <;>
      simp [fieldEvents, hm, ih hrs]

/-- Each transaction is three events (20_memory.md R43, R44). -/
theorem length_fieldEvents {ts : List FieldTriple} {ps : List (Byte × Byte)} (h : ps.length = fieldTxns ts) :
    (fieldEvents ts ps).length = 3 * ps.length := by
  induction ts generalizing ps with
  | nil => simp [List.eq_nil_of_length_eq_zero h, fieldEvents]
  | cons t ts ih =>
    obtain ⟨hm, p, rs, rfl, hrs⟩ | ⟨hm, p, q, rs, rfl, hrs⟩ := answers_of_fieldTxns_cons h <;>
      simp [fieldEvents, hm, ih hrs, rdEv, wrEv] <;> omega

/-! ### Stretches of micro-steps -/

/-- With the replies of success at hand the micro-steps `ops` perform the field writes `ts` and take the registers from `s` to
`t`, whatever the working registers and the events before them, the replies behind theirs and the micro-steps after them. -/
def Performs (ops : List MicroOp) (s t : State) (ts : List FieldTriple) : Prop :=
  ∀ (w : Work) (evs : List Event) (ps : List (Byte × Byte)) (rest : List Reply) (tail : List MicroOp),
    ps.length = fieldTxns ts →
    ∃ w', run (script ps ++ rest).length (advance (ops ++ tail) (s.saw w evs (script ps ++ rest))) =
      run rest.length (advance tail (t.saw w' (evs ++ fieldEvents ts ps) rest))

/-- Stretches join. -/
theorem Performs.append {ops ops' : List MicroOp} {s t u : State} {ts us : List FieldTriple} (h : Performs ops s t ts)
    (h' : Performs ops' t u us) : Performs (ops ++ ops') s u (ts ++ us) := by
  intro w evs ps rest tail hps
  rw [fieldTxns_append] at hps
  obtain ⟨qs, rs, rfl, hqs⟩ : ∃ qs rs, ps = qs ++ rs ∧ qs.length = fieldTxns ts :=
    ⟨ps.take (fieldTxns ts), ps.drop (fieldTxns ts), by simp, by simp [hps]⟩
  have hrs : rs.length = fieldTxns us := by simpa [hqs] using hps
  obtain ⟨w', hrun⟩ := h w evs qs (script rs ++ rest) (ops' ++ tail) hqs
  obtain ⟨w'', hrun'⟩ := h' w' (evs ++ fieldEvents ts qs) rs rest tail hrs
  refine ⟨w'', ?_⟩
  rw [script_append, List.append_assoc, List.append_assoc, hrun, hrun', fieldEvents_append hqs, List.append_assoc]

/-- A field write whose value does not hang on what was read is one entry of a list. -/
theorem performs_fieldWrite {s : State} {v : FieldVal} {b : Byte} (hv : ∀ w evs rest, (s.saw w evs rest).fieldVal v = b)
    (a : RegAddr) (mask : Byte) : Performs (fieldWrite a mask v) s s [{ addr := a, mask := mask, val := b }] := by
  intro w evs ps rest tail hps
  obtain ⟨rfl, p, qs, rfl, hqs⟩ | ⟨hm, p, q, qs, rfl, hqs⟩ := answers_of_fieldTxns_cons hps
  all_goals
    obtain rfl := List.eq_nil_of_length_eq_zero hqs
  · refine ⟨w, ?_⟩
    rw [run_fieldWrite_direct _ _ a v p tail rest (by simp [script, txn]) rfl, saw_saw, hv]
    simp [script, txn, fieldEvents]
  · refine ⟨{ w with rx := p.2, t := p.2 }, ?_⟩
    rw [run_fieldWrite_merged _ _ a v p q tail rest hm (by simp [script, txn]) rfl, saw_saw, hv]
    simp [script, txn, fieldEvents, hm]

/-- A write of a known byte is a field write of every bit. -/
theorem performs_wrLit (s : State) (a : RegAddr) (b : Byte) :
    Performs (wrLit a b) s s [{ addr := a, mask := 0xFF, val := b }] :=
  performs_fieldWrite (v := .lit b) (fun _ _ _ => rfl) a 0xFF

/-- The header flag as a field-write value (42_mode_config.md R120). -/
theorem fieldVal_header (s : State) : s.fieldVal .header = headerValue s.cfg.chip s.hdr := by
  rw [State.fieldVal]
  cases s.hdr <;> rfl

/-- `ApplyHeader` is the field write of the header flag (42_mode_config.md R120). -/
theorem performs_applyHeader (s : State) : Performs (applyHeader s.cfg.chip) s s (headerTriples s.cfg.chip s.hdr) :=
  performs_fieldWrite (v := .header) (fun _ _ _ => fieldVal_header _) _ _

/-- An assignment to `MODE` or `FREQ` makes no transaction. -/
theorem performs_setMode (s : State) (m : Mode) : Performs [.setMode m] s { s with mode := m } [] := by
  intro w evs ps rest tail hps
  obtain rfl := List.eq_nil_of_length_eq_zero hps
  exact ⟨w, by rw [fieldEvents, List.append_nil]; rfl⟩

theorem performs_setFreq (s : State) (f : BitVec 24) : Performs [.setFreq f] s { s with freq := f } [] := by
  intro w evs ps rest tail hps
  obtain rfl := List.eq_nil_of_length_eq_zero hps
  exact ⟨w, by rw [fieldEvents, List.append_nil]; rfl⟩

/-- `SetMode(m)` (42_mode_config.md R121). -/
theorem performs_setModeSeq (s : State) (m : Mode) :
    Performs (setModeSeq s.cfg.chip m) s { s with mode := m } (modeTriples s.cfg.chip s.hdr m) :=
  (performs_applyHeader s).append ((performs_wrLit s _ _).append (performs_setMode s m))

/-- `SetFrequency(f)` (R124). -/
theorem performs_setFrequencySeq (s : State) (f : BitVec 24) :
    Performs (setFrequencySeq s.cfg.chip f) s { s with freq := f } (freqTriples s.cfg.chip f) :=
  (performs_wrLit s _ _).append ((performs_wrLit s _ _).append ((performs_wrLit s _ _).append (performs_setFreq s f)))

end Sys2Proof.Machine
end

section
/-! `INIT` when its primitives succeed (41_initialization.md R110): what stands after the pulse, after the version check and after
the configuration, and from these the boundaries of `LIFE` (O27), the whole command (O23) and the count of its events (O24). -/

namespace Sys2Proof.Machine

theorem advance_setLife (l : Life) (ops : List MicroOp) (s : State) :
    advance (.setLife l :: ops) s = advance ops { s with life := l } := rfl

theorem advance_setHdr (v : HeaderMode) (ops : List MicroOp) (s : State) :
    advance (.setHdr v :: ops) s = advance ops { s with hdr := v } := rfl

/-! ### Acceptance, pulse, version check -/

/-- An idle block accepts `INIT`, whatever `LIFE` is (30_encoding.md R75). -/
theorem exec_init_of_idle {s : State} {f : BitVec 24} (h : s.Idle) (hf : f.toNat < 2 ^ s.cfg.widths.freqW) :
    exec (.init f) s = .next (s.start (.init f) (initSeq s.cfg.chip f)) := by
  obtain ⟨hb, -, -⟩ := h
  have hw : (Instr.init f).wf s.cfg.widths = true := by simpa [Instr.wf] using hf
  simp [exec_command (.init f) s rfl, hb, hw, isInit, microOf]

/-- A block that has accepted `INIT f` and driven the reset pin low and high again. -/
def State.resetting (s : State) (f : BitVec 24) : State :=
  { s with
    busy := true
    latch := some (.init f)
    hdr := .explicit
    life := .resetting
    rstShadow := .high
    trace := s.trace ++ [.pin .reset .low true, .delay 10, .pin .reset .high true] }

/-- The same block after the second delay, with which the pulse ends (70_reset_and_hazards.md R211). -/
def State.pulsed (s : State) (f : BitVec 24) : State :=
  { s.resetting f with life := .versionCheck, trace := s.trace ++ pulseEvents }

/-- The replies of the pulse up to its second delay take an accepted `INIT` to that delay. -/
theorem start_init_reset {s : State} (f : BitVec 24) {rest : List Reply}
    (hr : s.replies = .pin true :: .delay :: .pin true :: rest) :
    s.start (.init f) (initSeq s.cfg.chip f) =
      run rest.length (advance (.delay 10 :: .setLife .versionCheck :: (rd s.cfg.chip.reg.version .regT ++
        ([.checkVersion, .setLife .configuring] ++ initConfigure s.cfg.chip f))) ((s.resetting f).saw s.work [] rest)) := by
  rw [start_eq_run_saw _ _ hr, initSeq, initPulse]
  simp only [List.cons_append, List.nil_append, advance_setLife, advance_setHdr, List.length_cons]
  rw [run_pin (rest.length + 2) _ .reset .low true _ (.delay :: .pin true :: rest) rfl, afterPin, if_pos rfl,
    run_delay (rest.length + 1) _ _ _ (.pin true :: rest) rfl, afterDelay,
    run_pin rest.length _ .reset .high true _ rest rfl, afterPin, if_pos rfl, ← advance_upc _ _ s.upc]
  congr 2
  simp [State.resetting, State.saw, State.log, State.setShadow, Level.shadow, resetHoldMs]

/-- Those of the whole pulse take it to the version read. -/
theorem start_init_pulse {s : State} (f : BitVec 24) {rest : List Reply} (hr : s.replies = pulseScript ++ rest) :
    s.start (.init f) (initSeq s.cfg.chip f) =
      run rest.length (advance (rd s.cfg.chip.reg.version .regT ++
        ([.checkVersion, .setLife .configuring] ++ initConfigure s.cfg.chip f)) ((s.pulsed f).saw s.work [] rest)) := by
  rw [start_init_reset f (rest := .delay :: rest) hr, List.length_cons, run_delay rest.length _ _ _ rest rfl, afterDelay,
    advance_setLife, ← advance_upc _ _ s.upc]
  congr 2
  simp [State.pulsed, State.resetting, State.saw, State.log, pulseEvents]

/-- With the version byte that is expected they go on to the configuration. -/
theorem start_init_version {s : State} (f : BitVec 24) {p : Byte × Byte} {rest : List Reply}
    (hp : p.2 = s.cfg.chip.versionExpected) (hr : s.replies = pulseScript ++ (txn p ++ rest)) :
    ∃ w, s.start (.init f) (initSeq s.cfg.chip f) =
      run rest.length (advance (initConfigure s.cfg.chip f)
        (State.saw { s.pulsed f with life := .configuring } w (rdEv s.cfg.chip.reg.version p) rest)) := by
  refine ⟨{ s.work with rx := p.2, t := p.2 }, ?_⟩
  rw [start_init_pulse f hr, rd_step, store_regT_saw]
  congr 1
  exact if_pos hp

/-! ### Configuration -/

/-- The writes of step 3 of R110. -/
def initWrites (c : ChipMap) (f : BitVec 24) : List MicroOp :=
  setModeSeq c .sleep ++ (setFrequencySeq c f ++ ((wrLit c.reg.fifoTxBase 0x00 ++ (wrLit c.reg.fifoRxBase 0x00 ++
    (fieldWrite c.reg.lna c.lnaBoostMask (.lit c.lnaBoostMask) ++ wrLit c.reg.mc3 c.initMc3Value))) ++
      setModeSeq c .standby))

/-- After them the configuration releases chip-select and is Ready. -/
theorem initConfigure_eq (c : ChipMap) (f : BitVec 24) :
    initConfigure c f = initWrites c f ++ [.pin .cs .high, .setLife .ready] := by
  simp [initConfigure, initWrites]

/-- They are the field writes of `initTriples`, with `HDR` Explicit. -/
theorem performs_initWrites {s : State} (f : BitVec 24) (hh : s.hdr = .explicit) :
    Performs (initWrites s.cfg.chip f) s { s with mode := .standby, freq := f } (initTriples s.cfg.chip f) := by
  have hsleep := performs_setModeSeq s .sleep
  have hfreq := performs_setFrequencySeq { s with mode := .sleep } f
  have hlna (u : State) := performs_fieldWrite (s := u) (v := .lit u.cfg.chip.lnaBoostMask) (fun _ _ _ => rfl)
    u.cfg.chip.reg.lna u.cfg.chip.lnaBoostMask
  have hregs (u : State) := (performs_wrLit u u.cfg.chip.reg.fifoTxBase 0x00).append
    ((performs_wrLit u u.cfg.chip.reg.fifoRxBase 0x00).append
      ((hlna u).append (performs_wrLit u u.cfg.chip.reg.mc3 u.cfg.chip.initMc3Value)))
  have hstandby := performs_setModeSeq { s with mode := .sleep, freq := f } .standby
  rw [initTriples, ← hh]
  exact hsleep.append (hfreq.append ((hregs _).append hstandby))

/-- With the answers of every configuration write besides, an accepted `INIT` goes on to the final release of chip-select. -/
theorem start_init_configure {s : State} (f : BitVec 24) {p : Byte × Byte} {ps : List (Byte × Byte)} {rest : List Reply}
    (hp : p.2 = s.cfg.chip.versionExpected) (hps : ps.length = fieldTxns (initTriples s.cfg.chip f))
    (hr : s.replies = pulseScript ++ (txn p ++ (script ps ++ rest))) :
    ∃ w, s.start (.init f) (initSeq s.cfg.chip f) =
      run rest.length (advance [.pin .cs .high, .setLife .ready]
        (State.saw { s.pulsed f with life := .configuring, mode := .standby, freq := f } w
          (rdEv s.cfg.chip.reg.version p ++ fieldEvents (initTriples s.cfg.chip f) ps) rest)) := by
  obtain ⟨w, hversion⟩ := start_init_version f hp hr
  obtain ⟨w', hwrites⟩ := performs_initWrites (s := { s.pulsed f with life := .configuring }) f rfl w _ ps rest _ hps
  exact ⟨w', by rw [hversion, initConfigure_eq]; exact hwrites⟩

/-- With the last reply too it is Ready (41_initialization.md R110, R111). -/
theorem start_init_success {s : State} (f : BitVec 24) {p : Byte × Byte} {ps : List (Byte × Byte)} {rest : List Reply}
    (h : s.Idle) (hp : p.2 = s.cfg.chip.versionExpected) (hps : ps.length = fieldTxns (initTriples s.cfg.chip f))
    (hr : s.replies = pulseScript ++ (txn p ++ (script ps ++ (.pin true :: rest)))) :
    ∃ w, s.start (.init f) (initSeq s.cfg.chip f) =
      { s.done 0 w
          (pulseEvents ++ (rdEv s.cfg.chip.reg.version p ++ (fieldEvents (initTriples s.cfg.chip f) ps ++ [.pin .cs .high true])))
          rest with
        life := .ready, hdr := .explicit, mode := .standby, freq := f, rstShadow := .high } := by
  obtain ⟨w, hrun⟩ := start_init_configure f hp hps hr
  refine ⟨w, hrun.trans ?_⟩
  rw [List.length_cons, run_pin rest.length _ .cs .high true _ rest rfl, afterPin, if_pos rfl, advance_setLife, run_advance_nil]
  obtain ⟨hbusy, hupc, hlatch⟩ := h
  simp [State.pulsed, State.resetting, State.saw, State.done, State.complete, State.log, State.setShadow, Level.shadow,
    statusOk, pulseEvents, hbusy, hupc, hlatch]

/-! ### The whole command -/

/-- Settles O23: an idle block accepts `INIT`, and with every reply of success at hand it runs to Ready. -/
theorem initConfiguresChip : Obligations.InitConfiguresChip := by
  unfold Obligations.InitConfiguresChip
  intro s f p ps rest h hf hps hp hr
  obtain ⟨w, hstart⟩ := start_init_success f h hp hps hr
  exact ⟨w, (exec_init_of_idle h hf).trans (congrArg _ hstart)⟩

/-- A mask without the upper nibble is not a whole byte. -/
theorem ne_allOnes_of_and_eq_zero {mask : Byte} (h : mask &&& 0xF0#8 = 0#8) : mask ≠ 0xFF#8 := by
  rintro rfl
  exact absurd h (by decide)

/-- With the header and the boost mask no whole byte each, the configuration makes 14 transactions (41_initialization.md R110). -/
theorem fieldTxns_initTriples {c : ChipMap} (hhdr : c.hdrMask ≠ 0xFF#8) (hlna : c.lnaBoostMask ≠ 0xFF#8) (f : BitVec 24) :
    fieldTxns (initTriples c f) = 14 := by
  simp [initTriples, modeTriples, headerTriples, freqTriples, fieldTxns, hhdr, hlna]

/-- An admissible chip map keeps the header mask out of the upper nibble (00_scope.md R6). -/
theorem hdrMask_of_admissible {c : ChipMap} (h : c.Admissible) : c.hdrMask &&& 0xF0#8 = 0#8 := by
  simp only [ChipMap.Admissible, ChipMap.masksOk, Bool.and_eq_true, decide_eq_true_eq, and_assoc] at h
  obtain ⟨-, -, -, -, hnibble, -⟩ := h
  exact hnibble

/-- Settles O24: 4 events of the pulse, 3 of the version read, 42 of 14 transactions, and the final release. -/
theorem initPerformsFiftyEvents : Obligations.InitPerformsFiftyEvents := by
  unfold Obligations.InitPerformsFiftyEvents
  intro s f p ps rest h hf hc hlna hp hps hr
  have htxns := fieldTxns_initTriples (ne_allOnes_of_and_eq_zero (hdrMask_of_admissible hc)) hlna f
  have hlen := hps.trans htxns.symm
  obtain ⟨w, hexec⟩ := initConfiguresChip s f p ps rest h hf hlen hp hr
  refine ⟨_, hexec, rfl, ?_⟩
  simp [pulseEvents, rdEv, length_fieldEvents hlen, hps]

/-! ### The boundaries of `LIFE` -/

/-- The first micro-step of a field write is chip-select's low, in either of its forms. -/
theorem fieldWrite_eq_cons (a : RegAddr) (mask : Byte) (v : FieldVal) : ∃ ops, fieldWrite a mask v = .pin .cs .low :: ops := by
  unfold fieldWrite
  split <;> exact ⟨_, rfl⟩

/-- Settles O27: at each boundary the replies at hand have run out, and the block rests at the next primitive. -/
theorem initMovesLifeAtItsBoundaries : Obligations.InitMovesLifeAtItsBoundaries := by
  unfold Obligations.InitMovesLifeAtItsBoundaries
  intro s f p ps h hf
  rw [exec_init_of_idle h hf]
  refine ⟨fun hr => ?_, fun hr => ?_, fun hr => ?_, fun hr hp => ?_, fun hr hp hps => ?_⟩
  · have hstart := start_eq_run_saw (.init f) (initSeq s.cfg.chip f) hr
    exact ⟨_, _, congrArg _ hstart, rfl, rfl, List.append_nil _, rfl⟩
  · have hstart := start_init_reset f hr
    exact ⟨_, _, congrArg _ hstart, rfl, rfl, rfl, List.append_nil _⟩
  · have hstart := start_init_pulse f (rest := []) hr
    exact ⟨_, _, congrArg _ hstart, rfl, rfl, List.append_nil _, rfl⟩
  · obtain ⟨w, hstart⟩ := start_init_version f (rest := []) hp hr
    obtain ⟨ops, hops⟩ := fieldWrite_eq_cons s.cfg.chip.reg.mc1 s.cfg.chip.hdrMask .header
    rw [initConfigure, setModeSeq, applyHeader, hops] at hstart
    exact ⟨_, _, congrArg _ hstart, rfl, rfl, List.append_assoc _ _ _, rfl⟩
  · obtain ⟨w, hstart⟩ := start_init_configure f (rest := []) hp hps (by rw [hr, List.append_nil])
    exact ⟨_, _, congrArg _ hstart, rfl, rfl, rfl, rfl, rfl⟩

end Sys2Proof.Machine
end

section
/-! `INIT` however its replies come out (41_initialization.md R111, R112; O26): where its micro-sequence may stand, in terms of
the events performed and the registers it moves, and that a run keeps to this until it ends in Ready or in Failed. -/

namespace Sys2Proof.Machine

/-! ### What `INIT` moves -/

/-- The number of events performed, `LIFE` and the three caches. -/
structure Progress where
  events : Nat
  life : Life
  hdr : HeaderMode
  mode : Mode
  freq : BitVec 24

/-- The progress a state shows. -/
def State.progress (s : State) : Progress where
  events := s.trace.length
  life := s.life
  hdr := s.hdr
  mode := s.mode
  freq := s.freq

/-- What passing a micro-step makes of it: a primitive is one more event, an assignment writes its register. -/
def Progress.pass (v : Progress) : MicroOp → Progress
  | .pin _ _ => { v with events := v.events + 1 }
  | .recv _ => { v with events := v.events + 1 }
  | .send _ _ => { v with events := v.events + 1 }
  | .delay _ => { v with events := v.events + 1 }
  | .setLife l => { v with life := l }
  | .setHdr h => { v with hdr := h }
  | .setMode m => { v with mode := m }
  | .setFreq f => { v with freq := f }
  | _ => v

/-- Tests and assignments to the working registers leave it. -/
theorem pass_of_worksOnly {op : MicroOp} (h : worksOnly op = true) (v : Progress) : v.pass op = v := by
  cases op <;> simp [worksOnly] at h <;> rfl

/-- That is what a passed micro-step writes. -/
theorem progress_of_writes {op : MicroOp} {s t : State} (h : Writes op s t) : t.progress = s.progress.pass op := by
  cases h with
  | pin p l => cases p <;> simp [State.progress, Progress.pass, State.setShadow, State.log]
  | recv a e b => simp [State.progress, Progress.pass, State.log]
  | send a src e => simp [State.progress, Progress.pass, State.log]
  | delay n => simp [State.progress, Progress.pass, State.log]
  | work t w hop => rw [pass_of_worksOnly hop]; rfl
  | take d => cases d <;> rfl
  | _ => rfl

/-! ### Where its micro-sequence may stand -/

section
variable (s : State) (f : BitVec 24)

/-- `MODE` with `FREQ` in an `INIT f` accepted in `s`. -/
def InitCaches (m : Mode) (q : BitVec 24) : Prop :=
  (m = s.mode ∧ q = s.freq) ∨ (m = .sleep ∧ (q = s.freq ∨ q = f)) ∨ (m = .standby ∧ q = f)

/-- What holds of its progress at each primitive. -/
structure InitStands (v : Progress) : Prop where
  hdr : v.hdr = .explicit
  caches : InitCaches s f v.mode v.freq
  life : v.life = initPhase (v.events - s.trace.length)
  early : v.life ≠ .configuring → v.mode = s.mode ∧ v.freq = s.freq

/-- What its micro-sequence asks of the progress at a micro-step: the reset pin is driven in Resetting only, the version is
checked with the caches as of old, and there is no loop, no raw frame and no result. -/
def InitAllows (v : Progress) : MicroOp → Prop
  | .pin p _ => InitStands s f v ∧ (p = .reset → v.life = .resetting)
  | .recv _ => InitStands s f v
  | .send _ _ => InitStands s f v
  | .delay _ => InitStands s f v
  | .checkVersion => v.hdr = .explicit ∧ v.mode = s.mode ∧ v.freq = s.freq
  | .take _ => True
  | .setLife _ => True
  | .setHdr _ => True
  | .setMode _ => True
  | .setFreq _ => True
  | _ => False

/-- What is left of its micro-sequence fits the progress: every micro-step is allowed where it comes, and the end is Ready with
both caches set. -/
inductive InitPath : List MicroOp → Progress → Prop
  | ends {v : Progress} (hlife : v.life = .ready) (hhdr : v.hdr = .explicit) (hmode : v.mode = .standby) (hfreq : v.freq = f) :
      InitPath [] v
  | step {op : MicroOp} {rest : List MicroOp} {v : Progress} (ha : InitAllows s f v op) (hrest : InitPath rest (v.pass op)) :
      InitPath (op :: rest) v

end

section
variable {s : State} {f : BitVec 24}

/-- The progress of the configuration after `k` events. -/
def configuringAt (k : Nat) (m : Mode) (q : BitVec 24) : Progress where
  events := k
  life := .configuring
  hdr := .explicit
  mode := m
  freq := q

/-- Up to the version check a primitive stands where its count of events says. -/
theorem initStands_before_configuring (k : Nat) :
    InitStands s f { events := s.trace.length + k, life := initPhase k, hdr := .explicit, mode := s.mode, freq := s.freq } where
  hdr := rfl
  caches := .inl ⟨rfl, rfl⟩
  life := by simp
  early _ := ⟨rfl, rfl⟩

/-- After it a primitive stands in Configuring. -/
theorem initStands_configuringAt {k : Nat} {m : Mode} {q : BitVec 24} (hk : s.trace.length + 7 ≤ k) (hc : InitCaches s f m q) :
    InitStands s f (configuringAt k m q) where
  hdr := rfl
  caches := hc
  life := by
    have h4 : ¬ k - s.trace.length < 4 := by omega
    have h7 : ¬ k - s.trace.length < 7 := by omega
    simp [initPhase, configuringAt, h4, h7]
  early h := absurd rfl h

/-- The micro-steps of a bus transaction. -/
def isBusStep : MicroOp → Bool
  | .pin .cs _ => true
  | .recv _ => true
  | .send _ _ => true
  | .take _ => true
  | _ => false

theorem fieldWrite_isBusStep (a : RegAddr) (mask : Byte) (v : FieldVal) :
    ∀ op ∈ fieldWrite a mask v, isBusStep op = true := by
  unfold fieldWrite
  split <;> simp [wr, rd, isBusStep]

theorem wrLit_isBusStep (a : RegAddr) (b : Byte) : ∀ op ∈ wrLit a b, isBusStep op = true := by
  simp [wrLit, wr, isBusStep]

/-- Transactions of the configuration do no more than add events. -/
theorem initPath_transactions {ops rest : List MicroOp} {k : Nat} {m : Mode} {q : BitVec 24}
    (hops : ∀ op ∈ ops, isBusStep op = true) (hc : InitCaches s f m q) (hk : s.trace.length + 7 ≤ k)
    (hrest : ∀ k, s.trace.length + 7 ≤ k → InitPath s f rest (configuringAt k m q)) :
    InitPath s f (ops ++ rest) (configuringAt k m q) := by
  induction ops generalizing k with
  | nil => exact hrest k hk
  | cons op ops ih =>
    have hop := hops op (by simp)
    have hstands := initStands_configuringAt hk hc
    have ih (j : Nat) (hj : s.trace.length + 7 ≤ j) := ih (fun o ho => hops o (by simp [ho])) (k := j) hj
    cases op with
    | pin p l =>
      cases p with
      | cs => exact .step ⟨hstands, nofun⟩ (ih (k + 1) (by omega))
      | reset => cases hop
    | recv a => exact .step hstands (ih (k + 1) (by omega))
    | send a src => exact .step hstands (ih (k + 1) (by omega))
    | take d => exact .step trivial (ih k hk)
    | _ => cases hop

/-- A change of mode there writes `MODE`. -/
theorem initPath_setModeSeq {c : ChipMap} {rest : List MicroOp} {k : Nat} {m m' : Mode} {q : BitVec 24}
    (hc : InitCaches s f m q) (hk : s.trace.length + 7 ≤ k)
    (hrest : ∀ k, s.trace.length + 7 ≤ k → InitPath s f rest (configuringAt k m' q)) :
    InitPath s f (setModeSeq c m' ++ rest) (configuringAt k m q) := by
  rw [setModeSeq, applyHeader, List.append_assoc, List.append_assoc]
  exact initPath_transactions (fieldWrite_isBusStep _ _ _) hc hk fun _ hk =>
    initPath_transactions (wrLit_isBusStep _ _) hc hk fun k hk => .step trivial (hrest k hk)

/-- A change of frequency writes `FREQ`. -/
theorem initPath_setFrequencySeq {c : ChipMap} {rest : List MicroOp} {k : Nat} {m : Mode} {q q' : BitVec 24}
    (hc : InitCaches s f m q) (hk : s.trace.length + 7 ≤ k)
    (hrest : ∀ k, s.trace.length + 7 ≤ k → InitPath s f rest (configuringAt k m q')) :
    InitPath s f (setFrequencySeq c q' ++ rest) (configuringAt k m q) := by
  simp only [setFrequencySeq, List.append_assoc]
  exact initPath_transactions (wrLit_isBusStep _ _) hc hk fun _ hk =>
    initPath_transactions (wrLit_isBusStep _ _) hc hk fun _ hk =>
      initPath_transactions (wrLit_isBusStep _ _) hc hk fun k hk => .step trivial (hrest k hk)

/-- Step 3 of R110 takes the caches from the old pair through Sleep to Standby with `f`. -/
theorem initPath_initConfigure (c : ChipMap) :
    InitPath s f (initConfigure c f) (configuringAt (s.trace.length + 7) s.mode s.freq) := by
  have hold : InitCaches s f s.mode s.freq := .inl ⟨rfl, rfl⟩
  have hsleep : InitCaches s f .sleep s.freq := .inr (.inl ⟨rfl, .inl rfl⟩)
  have hfreq : InitCaches s f .sleep f := .inr (.inl ⟨rfl, .inr rfl⟩)
  have hstandby : InitCaches s f .standby f := .inr (.inr ⟨rfl, rfl⟩)
  exact initPath_setModeSeq hold le_rfl fun _ hk =>
    initPath_setFrequencySeq hsleep hk fun _ hk =>
      initPath_transactions (wrLit_isBusStep _ _) hfreq hk fun _ hk =>
        initPath_transactions (wrLit_isBusStep _ _) hfreq hk fun _ hk =>
          initPath_transactions (fieldWrite_isBusStep _ _ _) hfreq hk fun _ hk =>
            initPath_transactions (wrLit_isBusStep _ _) hfreq hk fun _ hk =>
              initPath_setModeSeq hfreq hk fun _ hk =>
                .step ⟨initStands_configuringAt hk hstandby, nofun⟩ (.step trivial (.ends rfl rfl rfl rfl))

/-- The whole micro-sequence fits the state that accepts `INIT`. -/
theorem initPath_initSeq (c : ChipMap) : InitPath s f (initSeq c f) s.progress := by
  have hstands := initStands_before_configuring (s := s) (f := f)
  have hversion : InitPath s f (rd c.reg.version .regT ++ ([.checkVersion, .setLife .configuring] ++ initConfigure c f))
      { events := s.trace.length + 4, life := .versionCheck, hdr := .explicit, mode := s.mode, freq := s.freq } :=
    .step ⟨hstands 4, nofun⟩ <| .step (hstands 5) <| .step ⟨hstands 6, nofun⟩ <| .step trivial <|
      .step ⟨rfl, rfl, rfl⟩ <| .step trivial (initPath_initConfigure c)
  exact .step trivial <| .step trivial <| .step ⟨hstands 0, fun _ => rfl⟩ <| .step (hstands 1) <|
    .step ⟨hstands 2, fun _ => rfl⟩ <| .step (hstands 3) <| .step trivial hversion

/-! ### What a run of it can come to -/

/-- `t` runs an `INIT f` accepted in `s`, with `ops` left to do. -/
structure RunsInit (s : State) (f : BitVec 24) (ops : List MicroOp) (t : State) : Prop where
  busy : t.busy = true
  latch : t.latch = some (.init f)
  cfg : t.cfg = s.cfg
  path : InitPath s f ops t.progress

/-- `t` has ended such an `INIT` (60_exceptions.md R182, R185, R192). -/
structure EndedInit (s : State) (f : BitVec 24) (t : State) : Prop where
  busy : t.busy = false
  upc : t.upc = []
  hdr : t.hdr = .explicit
  caches : InitCaches s f t.mode t.freq
  outcome : (t.life = .ready ∧ t.status = 0x00 ∧ t.result = 0 ∧ t.mode = .standby ∧ t.freq = f) ∨
    (t.life = .failed ∧ t.status ∈ [0x01, 0x03] ∧ t.result = 0) ∨
    (t.life = .failed ∧ t.status = 0x02 ∧ t.result = 0 ∧ t.mode = s.mode ∧ t.freq = s.freq) ∨
    (t.life = .failed ∧ t.status = 0x04 ∧ t.mode = s.mode ∧ t.freq = s.freq ∧
      ∃ b : Byte, b ≠ s.cfg.chip.versionExpected ∧ t.result = b.setWidth 32)

/-- The primitives (00_scope.md R8). -/
def isPrimitive : MicroOp → Bool
  | .pin _ _ => true
  | .recv _ => true
  | .send _ _ => true
  | .delay _ => true
  | _ => false

/-- What an accepted `INIT` has come to: it rests at a primitive, or it has ended. -/
def ReachedByInit (s : State) (f : BitVec 24) (t : State) : Prop :=
  (∃ op rest, t.upc = op :: rest ∧ isPrimitive op = true ∧ RunsInit s f (op :: rest) t) ∨ EndedInit s f t

/-- At a primitive of the path the progress is as it must be there. -/
theorem InitPath.stands {op : MicroOp} {rest : List MicroOp} {v : Progress} (h : InitPath s f (op :: rest) v)
    (hop : isPrimitive op = true) : InitStands s f v := by
  cases h with
  | step ha _ =>
    cases op with
    | pin p l => exact ha.1
    | recv a => exact ha
    | send a src => exact ha
    | delay n => exact ha
    | _ => cases hop

/-- A primitive raises its own fault, which is no version mismatch. -/
theorem ne_versionMismatch_of_raises {op : MicroOp} {e : Err} (h : Raises op e) (hop : isPrimitive op = true) (b : Byte) :
    e ≠ .versionMismatch b := by
  cases h with
  | pin p l => cases p <;> nofun
  | checkVersion b => cases hop
  | _ => nofun

/-- Passing a micro-step goes on along the path. -/
theorem RunsInit.pass {op : MicroOp} {rest : List MicroOp} {t u : State} (h : RunsInit s f (op :: rest) t)
    (hw : Writes op t u) : RunsInit s f rest u := by
  obtain ⟨hbusy, hlatch, hcfg⟩ := writes_frame hw
  refine ⟨hbusy.trans h.busy, hlatch.trans h.latch, hcfg.trans h.cfg, ?_⟩
  rw [progress_of_writes hw]
  cases h.path with
  | step _ hrest => exact hrest

/-- The end of the path is Ready. -/
theorem RunsInit.complete {t : State} (h : RunsInit s f [] t) : EndedInit s f (t.complete 0) := by
  cases h.path with
  | ends hlife hhdr hmode hfreq =>
    exact ⟨rfl, rfl, hhdr, .inr (.inr ⟨hmode, hfreq⟩), .inl ⟨hlife, rfl, rfl, hmode, hfreq⟩⟩

/-- An abort on the way is Failed, with the code and the information of its error (60_exceptions.md R184, R185). -/
theorem RunsInit.abort {op : MicroOp} {rest : List MicroOp} {t : State} {e : Err} (h : RunsInit s f (op :: rest) t)
    (hr : Raises op e) (hv : ∀ b, e = .versionMismatch b → b ≠ s.cfg.chip.versionExpected) : EndedInit s f (t.abort e) := by
  have hlife : (t.abort e).life = .failed := by simp [State.abort, lifeAfter, h.latch, isInit]
  obtain ⟨-, -, -, hpath⟩ := h
  cases hpath with
  | step ha _ =>
    cases hr with
    | pin p l =>
      obtain ⟨hs, hreset⟩ := ha
      refine ⟨rfl, rfl, hs.hdr, hs.caches, .inr ?_⟩
      cases p with
      | cs => exact .inl ⟨hlife, by simp [Err.code, pinErr], rfl⟩
      | reset => exact .inr (.inl ⟨hlife, rfl, rfl, hs.early (by rw [hreset rfl]; nofun)⟩)
    | recv a => exact ⟨rfl, rfl, ha.hdr, ha.caches, .inr (.inl ⟨hlife, by simp [Err.code], rfl⟩)⟩
    | send a src => exact ⟨rfl, rfl, ha.hdr, ha.caches, .inr (.inl ⟨hlife, by simp [Err.code], rfl⟩)⟩
    | checkVersion b =>
      obtain ⟨hhdr, hold⟩ := ha
      exact ⟨rfl, rfl, hhdr, .inl hold, .inr (.inr (.inr ⟨hlife, rfl, hold.1, hold.2, b, hv b rfl, rfl⟩))⟩
    | bandwidth i => exact ha.elim
    | pollTestBounded n => exact ha.elim

/-- Moving `upc` along the path comes to rest at a primitive, or ends. -/
theorem RunsInit.reached_advance {ops : List MicroOp} {t : State} (h : RunsInit s f ops t) :
    ReachedByInit s f (advance ops t) := by
  induction ops generalizing t with
  | nil => exact .inr h.complete
  | cons op rest ih =>
    cases op with
    | pin p l => exact .inl ⟨_, _, rfl, rfl, { h with }⟩
    | recv a => exact .inl ⟨_, _, rfl, rfl, { h with }⟩
    | send a src => exact .inl ⟨_, _, rfl, rfl, { h with }⟩
    | delay n => exact .inl ⟨_, _, rfl, rfl, { h with }⟩
    | take d => exact ih (h.pass (.take d t))
    | setLife l => exact ih (h.pass (.setLife l t))
    | setHdr v => exact ih (h.pass (.setHdr v t))
    | setMode m => exact ih (h.pass (.setMode m t))
    | setFreq q => exact ih (h.pass (.setFreq q t))
    | checkVersion =>
      simp only [advance]
      split
      · exact ih (h.pass (.work t t.work rfl))
      · next hne => exact .inr (h.abort (.checkVersion _) fun b hb => by cases hb; rwa [← h.cfg])
    | _ => cases h.path with | step ha _ => exact ha.elim

/-- A primitive performed keeps to it, whatever its outcome. -/
theorem ReachedByInit.of_perform {r : Reply} {rs : List Reply} {t : State} (h : ReachedByInit s f t)
    (ha : answers r t.upc = true) : ReachedByInit s f (perform r { t with replies := rs }) := by
  obtain ⟨op, rest, hupc, hop, hruns⟩ | hend := h
  · have hruns : RunsInit s f (op :: rest) { t with replies := rs } := { hruns with }
    obtain heq | ⟨op', rest', hupc', hcase⟩ := perform_cases r { t with replies := rs }
    · rw [heq]
      exact .inl ⟨op, rest, hupc, hop, hruns⟩
    · obtain ⟨rfl, rfl⟩ := List.cons.inj (hupc.symm.trans hupc')
      obtain ⟨u, hw, heq⟩ | ⟨ev, e, hr, heq⟩ := hcase
      · rw [heq]
        exact (hruns.pass hw).reached_advance
      · rw [heq]
        have hend := hruns.abort hr fun b hb => absurd hb (ne_versionMismatch_of_raises hr hop b)
        exact .inr { hend with }
  · rw [hend.upc] at ha
    cases ha

/-- So does the run of an accepted `INIT`. -/
theorem reachedByInit_start : ReachedByInit s f (s.start (.init f) (initSeq s.cfg.chip f)) :=
  run_keeps (ReachedByInit s f) (fun _ _ _ _ ha h => h.of_perform ha) _ _
    (RunsInit.reached_advance (t := { s with busy := true, latch := some (.init f) }) ⟨rfl, rfl, rfl, initPath_initSeq _⟩)

end

/-- Settles O26: a running `INIT` rests at a primitive of its path, and one that has ended did so in one of its four ways. -/
theorem initEndsReadyOrFailed : Obligations.InitEndsReadyOrFailed := by
  unfold Obligations.InitEndsReadyOrFailed
  intro s t f h hf hexec
  obtain ⟨-, -, -, -, -, -, -, ⟨evs, htrace⟩, -⟩ := commandsLeaveHostSideAlone (.init f) s t hexec
  rw [exec_init_of_idle h hf] at hexec
  cases hexec
  obtain ⟨op, rest, -, hop, hruns⟩ | hend := reachedByInit_start (s := s) (f := f)
  · have hstands := hruns.path.stands hop
    have hlife := hstands.life
    simp only [State.progress, htrace, List.length_append, Nat.add_sub_cancel_left] at hlife
    exact ⟨hstands.hdr, hstands.caches, fun _ => ⟨⟨evs, htrace, hlife⟩, hstands.early⟩,
      fun hidle => absurd (hruns.busy.symm.trans hidle) nofun⟩
  · exact ⟨hend.hdr, hend.caches, fun hbusy => absurd (hend.busy.symm.trans hbusy) nofun, fun _ => hend.outcome⟩

end Sys2Proof.Machine
end

section
/-! The formulas of the setters (42_mode_config.md R130 to R138): the over-current trim (O56), the low-data-rate flag (O58), the
open parameters (O60). -/

namespace Sys2Proof.Machine

/-! ### The over-current trim (R133) -/

theorem ocpTrim_below {ma : Nat} (h : ma < 45) : ocpTrim ma = 0 := if_pos h

theorem ocpTrim_fine {ma : Nat} (h : 45 ≤ ma) (h' : ma ≤ 120) : ocpTrim ma = (ma - 45) / 5 := by
  rw [ocpTrim, if_neg (by omega), if_pos h']

theorem ocpTrim_coarse {ma : Nat} (h : 120 < ma) (h' : ma ≤ 240) : ocpTrim ma = (ma + 30) / 10 := by
  rw [ocpTrim, if_neg (by omega), if_neg (by omega), if_pos h']

theorem ocpTrim_above {ma : Nat} (h : 240 < ma) : ocpTrim ma = 27 := by
  rw [ocpTrim, if_neg (by omega), if_neg (by omega), if_neg (by omega)]

/-- Each piece is non-decreasing and ends no higher than the next begins. -/
theorem ocpTrim_mono {a b : Nat} (h : a ≤ b) : ocpTrim a ≤ ocpTrim b := by
  unfold ocpTrim
  split_ifs <;> omega

/-- Settles O56: one lemma for each of the four pieces, whose ranges are linear arithmetic. -/
theorem ocpTrimIsPiecewise : Obligations.OcpTrimIsPiecewise := by
  unfold Obligations.OcpTrimIsPiecewise
  refine ⟨fun ma h => ocpTrim_below h, fun ma h h' => ?_, fun ma h h' => ?_, fun ma h => ocpTrim_above h,
    fun a b h => ocpTrim_mono h⟩
  · rw [ocpTrim_fine h h']
    omega
  · rw [ocpTrim_coarse h h']
    omega

/-! ### The low-data-rate flag (R130, R131) -/

/-- The cells of the bandwidth table, for the spreading factors a nibble holds, where the two thresholds differ (R131). -/
theorem ldoFlag_differs_of_table : ∀ sf < 16, ∀ hz ∈ bwTable,
    (ldoFlag .exact sf hz ≠ ldoFlag .truncating sf hz ↔
      (sf, hz) ∈ [(7, 7800), (8, 15600), (9, 31250), (10, 62500), (11, 125000), (12, 250000)]) := by
  decide

/-- Settles O58: the exact flag is its comparison, and the truncating one is evaluated on the table. -/
theorem lowDataRateFlagCells : Obligations.LowDataRateFlagCells := by
  unfold Obligations.LowDataRateFlagCells
  exact ⟨fun sf hz => decide_eq_true_iff, fun sf hz hsf hhz => ldoFlag_differs_of_table sf (Nat.lt_succ_of_le hsf) hz hhz⟩

/-! ### The open parameters (R135, R137, R138, R140) -/

/-- The clamp of 00_scope.md R8 in terms of `max` and `min`. -/
theorem clamp_eq_max_min {lo hi : Nat} (x : Nat) (h : lo ≤ hi) : clamp x lo hi = max lo (min x hi) := by
  unfold clamp
  split_ifs <;> omega

/-- The high byte of a length is its quotient by 256. -/
theorem highByte_eq_div (len : BitVec 16) : len.extractLsb' 8 8 = BitVec.ofNat 8 (len.toNat / 256) :=
  congrArg (BitVec.ofNat 8) (Nat.shiftRight_eq_div_pow len.toNat 8)

/-- The low byte is its remainder. -/
theorem lowByte_eq_mod (len : BitVec 16) : len.extractLsb' 0 8 = BitVec.ofNat 8 (len.toNat % 256) :=
  BitVec.eq_of_toNat_eq (by simp [BitVec.extractLsb'_toNat])

/-- Settles O60: each open function is evaluated at its default and at a written-out parameter. -/
theorem openSettersSendTheirParameters : Obligations.OpenSettersSendTheirParameters := by
  unfold Obligations.OpenSettersSendTheirParameters
  refine ⟨fun x lo hi h => clamp_eq_max_min x h, fun c p => ⟨fun h => ?_, fun l b h hb => ?_⟩,
    fun c len => ⟨fun h => ?_, fun rows l h hl => ?_⟩, fun c => ⟨fun h => ?_, fun off on h => ?_⟩,
    fun c => ⟨fun h => ?_, fun l h => ?_⟩⟩
  · simp [paByte, h, clamp_eq_max_min]
  · simp [paByte, h, List.getD_eq_getElem?_getD, hb]
  · simp [preambleList, h, highByte_eq_div, lowByte_eq_mod]
  · simp [preambleList, h, List.getD_eq_getElem?_getD, hl]
  · simp [invertIqList, h]
  · simp [invertIqList, h]
  · simp [dio0List, h]
  · simp [dio0List, h]

end Sys2Proof.Machine
end

section
/-! The setters when their primitives succeed (42_mode_config.md R120 to R140): a command whose micro-sequence performs field
writes (O28, O31, O36, O37), one that ends with `UpdateLdo` besides (O33, O34), and the one that makes no transaction (O30). -/

namespace Sys2Proof.Machine

/-! ### Commands that perform field writes -/

/-- A ready block that has all the answers of a command's field writes completes it, with the registers they leave. -/
theorem exec_of_performs {i : Instr} {s t : State} {ts : List FieldTriple} {ps : List (Byte × Byte)} {rest : List Reply}
    (hc : isCommand i = true) (hw : i.wf s.cfg.widths = true) (h : s.Ready) (ht : t.Idle)
    (hp : Performs (microOf s.cfg i) { s with busy := true, latch := some i } { t with busy := true, latch := some i } ts)
    (hps : ps.length = fieldTxns ts) (hr : s.replies = script ps ++ rest) :
    ∃ w, exec i s = .next (t.done 0 w (fieldEvents ts ps) rest) := by
  obtain ⟨w, hrun⟩ := hp s.work [] ps rest [] hps
  rw [List.append_nil, List.nil_append, run_advance_nil, complete_saw t _ _ _ _ _ ht] at hrun
  exact ⟨w, by rw [exec_of_ready hc hw h, start_eq_run_saw i _ hr, hrun]⟩

/-- A field write of a known byte is one entry of a list. -/
theorem performs_fieldWrite_lit (s : State) (a : RegAddr) (mask b : Byte) :
    Performs (fieldWrite a mask (.lit b)) s s [{ addr := a, mask := mask, val := b }] :=
  performs_fieldWrite (fun _ _ _ => rfl) a mask

/-- A field-write list performs itself (R134). -/
theorem performs_fieldWrites (s : State) (l : List FieldTriple) : Performs (fieldWrites l) s s l := by
  induction l with
  | nil =>
    intro w evs ps rest tail hps
    obtain rfl := List.eq_nil_of_length_eq_zero hps
    exact ⟨w, by rw [fieldEvents, List.append_nil]; rfl⟩
  | cons f fs ih => exact (performs_fieldWrite_lit s f.addr f.mask f.val).append ih

/-- The operands of `SET_MODE` by the modes they name (R122). -/
theorem modeOf_of_mem {m : BitVec 3} {md : Mode}
    (h : (m, md) ∈ [(0, .sleep), (1, .standby), (2, .transmit), (3, .receiveContinuous), (4, .receiveSingle)]) :
    modeOf m = some md ∧ m.toNat ≤ 4 := by
  simp only [List.mem_cons, Prod.mk.injEq, List.not_mem_nil, or_false] at h
  rcases h with ⟨rfl, rfl⟩ | ⟨rfl, rfl⟩ | ⟨rfl, rfl⟩ | ⟨rfl, rfl⟩ | ⟨rfl, rfl⟩ <;> decide

/-- An operand up to 4 is legal. -/
theorem wf_setMode {m : BitVec 3} (h : m.toNat ≤ 4) (ws : Widths) : (Instr.setMode m).wf ws = true := by
  simpa [Instr.wf] using h

/-- Where the operand names a mode, the micro-sequence of `SET_MODE` is the change to it. -/
theorem microOf_setMode {m : BitVec 3} {md : Mode} (h : modeOf m = some md) (c : BlockConfig) :
    microOf c (.setMode m) = setModeSeq c.chip md := by
  rw [microOf, h]

/-- Settles O28: the micro-sequence is `SetMode`, which performs the header and the mode write and leaves `MODE` the target. -/
theorem setModeWritesHeaderThenMode : Obligations.SetModeWritesHeaderThenMode := by
  unfold Obligations.SetModeWritesHeaderThenMode
  intro s m md ps rest h hm hps hr
  obtain ⟨hmode, hle⟩ := modeOf_of_mem hm
  have hp := performs_setModeSeq { s with busy := true, latch := some (.setMode m) } md
  rw [← microOf_setMode hmode s.cfg] at hp
  exact exec_of_performs (t := { s with mode := md }) rfl (wf_setMode hle _) h h.1 hp hps hr

/-- A frequency operand of `FREQ_W` bits is legal. -/
theorem wf_setFrequency {f : BitVec 24} {ws : Widths} (h : f.toNat < 2 ^ ws.freqW) : (Instr.setFrequency f).wf ws = true := by
  simpa [Instr.wf] using h

/-- Settles O31: the micro-sequence is `SetFrequency`, and the division of 30_encoding.md R78 is the product by 2^14. -/
theorem setFrequencyWritesThreeBytes : Obligations.SetFrequencyWritesThreeBytes := by
  unfold Obligations.SetFrequencyWritesThreeBytes
  intro s f p q r rest h hf hr
  have hp := performs_setFrequencySeq { s with busy := true, latch := some (.setFrequency f) } f
  obtain ⟨w, hexec⟩ := exec_of_performs (i := .setFrequency f) (t := { s with freq := f }) rfl (wf_setFrequency hf)
    h h.1 hp (ps := [p, q, r]) rfl hr
  refine ⟨w, hexec.trans ?_⟩
  rw [← frf_eq_mul]
  simp [freqTriples, fieldEvents, frfMsb, frfMid, frfLsb, frf24, State.done]

/-- Settles O36: the micro-sequence of each of the five is its field-write list. -/
theorem fieldListSettersWriteTheirLists : Obligations.FieldListSettersWriteTheirLists := by
  unfold Obligations.FieldListSettersWriteTheirLists
  intro s l ps rest i h hi hps hr
  obtain ⟨d, rfl, rfl⟩ | ⟨len, rfl, rfl⟩ | ⟨e, rfl, rfl⟩ | ⟨e, rfl, rfl⟩ | ⟨rfl, rfl⟩ := hi
  · exact exec_of_performs rfl rfl h h.1 (performs_fieldWrite_lit _ _ _ _) hps hr
  · exact exec_of_performs rfl rfl h h.1 (performs_fieldWrites _ _) hps hr
  · exact exec_of_performs rfl rfl h h.1 (performs_fieldWrite_lit _ _ _ _) hps hr
  · exact exec_of_performs rfl rfl h h.1 (performs_fieldWrites _ _) hps hr
  · exact exec_of_performs rfl rfl h h.1 (performs_fieldWrites _ _) hps hr

/-- Settles O37: the micro-sequence of each of the two is one write of a byte known beforehand. -/
theorem directSettersWriteOneByte : Obligations.DirectSettersWriteOneByte := by
  unfold Obligations.DirectSettersWriteOneByte
  intro s b p rest h hr
  have hstart (i : Instr) (a : RegAddr) (v : Byte) := start_wrLit i a v p rest h.1 hr
  exact ⟨⟨_, (exec_of_ready (i := .setTxPower b) rfl rfl h).trans (congrArg _ (hstart _ _ _))⟩,
    ⟨_, (exec_of_ready (i := .setOcp b) rfl rfl h).trans (congrArg _ (hstart _ _ _))⟩⟩

/-- Settles O30: the micro-sequence is the one assignment, so the command completes on acceptance. -/
theorem setHeaderWritesCacheOnly : Obligations.SetHeaderWritesCacheOnly := by
  unfold Obligations.SetHeaderWritesCacheOnly
  intro s v h
  rw [exec_of_ready (i := .setHeader v) rfl rfl h, State.start, microOf, advance_setHdr, run_advance_nil]
  obtain ⟨⟨hbusy, hupc, hlatch⟩, -⟩ := h
  simp [State.complete, statusOk, headerOf, hbusy, hupc, hlatch]

/-! ### Commands that end with `UpdateLdo` -/

/-- The high nibble as the four bits it is. -/
theorem highNibble_eq_extract (b : Byte) : highNibble b = (b.extractLsb' 4 4).toNat := by
  rw [highNibble, BitVec.toNat_ushiftRight, BitVec.extractLsb'_toNat, Nat.shiftRight_eq_div_pow]
  omega

/-- `ReadBwHz` where the table has the index read (R129). -/
theorem readBwHz_step (s : State) (w : Work) (evs : List Event) (c : ChipMap) {p : Byte × Byte} {hz : Nat} (ops : List MicroOp)
    (rest : List Reply) (hp : bwHz (highNibble p.2) = some hz) :
    run (txn p ++ rest).length (advance (readBwHz c ++ ops) (s.saw w evs (txn p ++ rest))) =
      run rest.length (advance ops (s.saw { w with rx := p.2, t := p.2, hz := hz } (evs ++ rdEv c.reg.mc1 p) rest)) := by
  rw [readBwHz, List.append_assoc, rd_step, store_regT_saw, List.singleton_append, advance, saw_work, hp]
  rfl

/-- `sf <- T[7:4]` is one more change of the working registers (R130). -/
theorem advance_spreading_saw (s : State) (w : Work) (evs : List Event) (ops : List MicroOp) (rest : List Reply) :
    advance (.spreading :: ops) (s.saw w evs rest) = advance ops (s.saw { w with sf := highNibble w.t } evs rest) := rfl

/-- A field write of a value that hangs on what was read, at the state where it is issued. -/
theorem fieldWrite_step (s : State) (w : Work) (evs : List Event) (a : RegAddr) (mask : Byte) {v : FieldVal} {b : Byte}
    {ps : List (Byte × Byte)} (ops : List MicroOp) (rest : List Reply) (hv : (s.saw w evs (script ps ++ rest)).fieldVal v = b)
    (hps : ps.length = fieldTxns [{ addr := a, mask := mask, val := b }]) :
    ∃ w', run (script ps ++ rest).length (advance (fieldWrite a mask v ++ ops) (s.saw w evs (script ps ++ rest))) =
      run rest.length (advance ops
        (s.saw w' (evs ++ fieldEvents [{ addr := a, mask := mask, val := b }] ps) rest)) := by
  obtain ⟨rfl, p, qs, rfl, hqs⟩ | ⟨hm, p, q, qs, rfl, hqs⟩ := answers_of_fieldTxns_cons hps
  all_goals
    obtain rfl := List.eq_nil_of_length_eq_zero hqs
  · refine ⟨w, ?_⟩
    rw [run_fieldWrite_direct _ _ a v p ops rest (by simp [script, txn]) rfl, saw_saw, hv]
    simp [script, txn, fieldEvents]
  · refine ⟨{ w with rx := p.2, t := p.2 }, ?_⟩
    rw [run_fieldWrite_merged _ _ a v p q ops rest hm (by simp [script, txn]) rfl, saw_saw, hv]
    simp [script, txn, fieldEvents, hm]

/-- `UpdateLdo` where the table has the index read: two reads, and the flag's field write from the values read (R130). -/
theorem updateLdo_step (s : State) (w : Work) (evs : List Event) {pb psf : Byte × Byte} {ps : List (Byte × Byte)} {hz : Nat}
    (ops : List MicroOp) (rest : List Reply) (hpb : bwHz (highNibble pb.2) = some hz)
    (hps : ps.length = fieldTxns (ldoTriples s.cfg (highNibble psf.2) hz)) :
    ∃ w', run (txn pb ++ (txn psf ++ (script ps ++ rest))).length
        (advance (updateLdo s.cfg.chip ++ ops) (s.saw w evs (txn pb ++ (txn psf ++ (script ps ++ rest))))) =
      run rest.length (advance ops (s.saw w' (evs ++ rdEv s.cfg.chip.reg.mc1 pb ++ rdEv s.cfg.chip.reg.mc2 psf ++
        fieldEvents (ldoTriples s.cfg (highNibble psf.2) hz) ps) rest)) := by
  have hops : updateLdo s.cfg.chip ++ ops = readBwHz s.cfg.chip ++ (rd s.cfg.chip.reg.mc2 .regT ++
      (.spreading :: (fieldWrite s.cfg.chip.reg.mc3 s.cfg.chip.ldoMask .ldo ++ ops))) := by simp [updateLdo]
  rw [hops, readBwHz_step _ _ _ _ _ _ hpb, rd_step, store_regT_saw, advance_spreading_saw]
  exact fieldWrite_step s _ _ _ _ ops rest rfl hps

/-- A ready block that has the answers of a command's field writes and of the `UpdateLdo` behind them completes it. -/
theorem exec_of_performs_updateLdo {i : Instr} {s : State} {ops : List MicroOp} {ts : List FieldTriple}
    {qs ps : List (Byte × Byte)} {pb psf : Byte × Byte} {hz : Nat} {rest : List Reply} (hc : isCommand i = true)
    (hw : i.wf s.cfg.widths = true) (h : s.Ready) (hi : microOf s.cfg i = ops ++ updateLdo s.cfg.chip)
    (hp : ∀ u, Performs ops u u ts) (hqs : qs.length = fieldTxns ts)
    (hpb : bwHz (pb.2.extractLsb' 4 4).toNat = some hz)
    (hps : ps.length = fieldTxns (ldoTriples s.cfg (psf.2.extractLsb' 4 4).toNat hz))
    (hr : s.replies = script qs ++ (txn pb ++ (txn psf ++ (script ps ++ rest)))) :
    ∃ w, exec i s = .next (s.done 0 w (fieldEvents ts qs ++ (rdEv s.cfg.chip.reg.mc1 pb ++ (rdEv s.cfg.chip.reg.mc2 psf ++
      fieldEvents (ldoTriples s.cfg (psf.2.extractLsb' 4 4).toNat hz) ps))) rest) := by
  rw [← highNibble_eq_extract] at hpb hps ⊢
  obtain ⟨w, hwrites⟩ := hp { s with busy := true, latch := some i } s.work [] qs _ (updateLdo s.cfg.chip) hqs
  obtain ⟨w', hflag⟩ := updateLdo_step { s with busy := true, latch := some i } w (fieldEvents ts qs) [] rest hpb hps
  rw [List.append_nil, run_advance_nil, complete_saw s _ _ _ _ _ h.1] at hflag
  refine ⟨w', ?_⟩
  rw [exec_of_ready hc hw h, start_eq_run_saw i _ hr, hi, hwrites, List.nil_append, hflag]
  simp only [List.append_assoc]

/-- The two detection constants are one case distinction each (30_encoding.md R86). -/
theorem detection_eq (x : Byte) :
    detection x = (if clamp x.toNat 6 12 = 6 then 0xC5 else 0xC3, if clamp x.toNat 6 12 = 6 then 0x0C else 0x0A) := by
  unfold detection spreadingOf
  split <;> rfl

/-- Settles O33: two direct writes and the nibble's field write, then `UpdateLdo`. -/
theorem setSfWritesNibbleAndFlag : Obligations.SetSfWritesNibbleAndFlag := by
  unfold Obligations.SetSfWritesNibbleAndFlag
  intro s x d1 d2 r1 w1 pb psf ps hz rest h hpb hps hr
  have hp (u : State) := (performs_wrLit u s.cfg.chip.reg.detectOpt (detection x).1).append
    ((performs_wrLit u s.cfg.chip.reg.detectThr (detection x).2).append
      (performs_fieldWrite_lit u s.cfg.chip.reg.mc2 0xF0 (spreadingField x)))
  obtain ⟨w, hexec⟩ := exec_of_performs_updateLdo (i := .setSf x) (qs := [d1, d2, r1, w1]) rfl rfl h
    (by simp [microOf, setSfSeq]) hp rfl hpb hps hr
  refine ⟨w, hexec.trans ?_⟩
  simp [fieldEvents, detection_eq, spreadingField, spreadingOf]

/-- Settles O34: the nibble's field write, then `UpdateLdo`. -/
theorem setBwWritesIndexAndFlag : Obligations.SetBwWritesIndexAndFlag := by
  unfold Obligations.SetBwWritesIndexAndFlag
  intro s f r1 w1 pb psf ps hz rest h hpb hps hr
  have hp (u : State) := performs_fieldWrite_lit u s.cfg.chip.reg.mc1 0xF0 (bwField f)
  obtain ⟨w, hexec⟩ := exec_of_performs_updateLdo (i := .setBw f) (qs := [r1, w1]) rfl rfl h rfl hp rfl hpb hps hr
  refine ⟨w, hexec.trans ?_⟩
  simp [fieldEvents, bwField]

end Sys2Proof.Machine
end

section
/-! `SET_MODE` and `SET_FREQUENCY` however their replies come out (42_mode_config.md R121, R124; O29, O32): bus transactions and,
behind them, one assignment to a cache, which a run passes only where it ends with success. -/

namespace Sys2Proof.Machine

/-- `MODE` with `FREQ`. -/
def Progress.caches (v : Progress) : Mode × BitVec 24 := (v.mode, v.freq)

/-- The assignments to them. -/
def writesCache : MicroOp → Bool
  | .setMode _ => true
  | .setFreq _ => true
  | _ => false

/-- `t` runs the bus steps `pre` of a command that started with the caches of `s` and has the assignment `op` behind them. -/
structure BeforeCommit (s : State) (pre : List MicroOp) (t : State) : Prop where
  busy : t.busy = true
  caches : t.progress.caches = s.progress.caches
  bus : ∀ o ∈ pre, isBusStep o = true

/-- `t` has ended such a command: with success and the assignment made, or with an error and the caches of before. -/
structure EndedCommit (s : State) (op : MicroOp) (t : State) : Prop where
  busy : t.busy = false
  upc : t.upc = []
  outcome : (t.status = 0x00 ∧ t.progress.caches = (s.progress.pass op).caches) ∨
    (t.status ≠ 0x00 ∧ t.progress.caches = s.progress.caches)

/-- What such a command has come to: it rests at a bus step before the assignment, or it has ended. -/
def ReachedByCommit (s : State) (op : MicroOp) (t : State) : Prop :=
  (∃ o pre, t.upc = o :: (pre ++ [op]) ∧ BeforeCommit s (o :: pre) t) ∨ EndedCommit s op t

/-- No error has the code of a success (60_exceptions.md R180). -/
theorem code_ne_ok (e : Err) : e.code ≠ 0x00 := by
  cases e <;> simp [Err.code]

/-- A bus step leaves both caches. -/
theorem caches_pass_of_isBusStep {o : MicroOp} (h : isBusStep o = true) (v : Progress) : (v.pass o).caches = v.caches := by
  cases o with
  | pin p l => rfl
  | recv a => rfl
  | send a src => rfl
  | take d => rfl
  | _ => cases h

section
variable {s : State} {op : MicroOp}

/-- Passing a bus step goes on before the assignment. -/
theorem BeforeCommit.pass {o : MicroOp} {pre : List MicroOp} {t u : State} (h : BeforeCommit s (o :: pre) t)
    (hw : Writes o t u) : BeforeCommit s pre u := by
  obtain ⟨hbusy, -, -⟩ := writes_frame hw
  refine ⟨hbusy.trans h.busy, ?_, fun o' ho' => h.bus o' (by simp [ho'])⟩
  rw [progress_of_writes hw, caches_pass_of_isBusStep (h.bus o (by simp)), h.caches]

/-- An abort there leaves the caches of before, and an error code (60_exceptions.md R184, R192). -/
theorem BeforeCommit.abort {pre : List MicroOp} {t : State} (h : BeforeCommit s pre t) (ev : Event) (e : Err) :
    EndedCommit s op ((t.log ev).abort e) :=
  ⟨rfl, rfl, .inr ⟨code_ne_ok e, h.caches⟩⟩

/-- Behind the bus steps the assignment is made and the command completes. -/
theorem BeforeCommit.commit {t : State} (h : BeforeCommit s [] t) (hop : writesCache op = true) :
    EndedCommit s op (advance [op] t) := by
  obtain ⟨hmode, hfreq⟩ := Prod.mk.inj h.caches
  cases op with
  | setMode m => exact ⟨rfl, rfl, .inl ⟨rfl, Prod.ext rfl hfreq⟩⟩
  | setFreq f => exact ⟨rfl, rfl, .inl ⟨rfl, Prod.ext hmode rfl⟩⟩
  | _ => cases hop

/-- Moving `upc` through the bus steps comes to rest at one of them, or ends. -/
theorem BeforeCommit.reached_advance {pre : List MicroOp} {t : State} (h : BeforeCommit s pre t)
    (hop : writesCache op = true) : ReachedByCommit s op (advance (pre ++ [op]) t) := by
  induction pre generalizing t with
  | nil => exact .inr (h.commit hop)
  | cons o pre ih =>
    have hbus := h.bus o (by simp)
    cases o with
    | pin p l => exact .inl ⟨_, pre, rfl, { h with }⟩
    | recv a => exact .inl ⟨_, pre, rfl, { h with }⟩
    | send a src => exact .inl ⟨_, pre, rfl, { h with }⟩
    | take d => exact ih (h.pass (.take d t))
    | _ => cases hbus

/-- A primitive performed keeps to it, whatever its outcome. -/
theorem ReachedByCommit.of_perform {r : Reply} {rs : List Reply} {t : State} (h : ReachedByCommit s op t)
    (hop : writesCache op = true) (ha : answers r t.upc = true) :
    ReachedByCommit s op (perform r { t with replies := rs }) := by
  obtain ⟨o, pre, hupc, hbefore⟩ | hend := h
  · have hbefore : BeforeCommit s (o :: pre) { t with replies := rs } := { hbefore with }
    obtain heq | ⟨o', rest, hupc', hcase⟩ := perform_cases r { t with replies := rs }
    · rw [heq]
      exact .inl ⟨o, pre, hupc, hbefore⟩
    · obtain ⟨rfl, rfl⟩ := List.cons.inj (hupc.symm.trans hupc')
      obtain ⟨u, hw, heq⟩ | ⟨ev, e, -, heq⟩ := hcase
      · rw [heq]
        exact (hbefore.pass hw).reached_advance hop
      · rw [heq]
        exact .inr (hbefore.abort ev e)
  · rw [hend.upc] at ha
    cases ha

/-- The caches change exactly where the command has ended with success. -/
theorem ReachedByCommit.caches {t : State} (h : ReachedByCommit s op t) :
    (t.busy = false ∧ t.status = 0x00 → t.progress.caches = (s.progress.pass op).caches) ∧
    (t.busy = true ∨ t.status ≠ 0x00 → t.progress.caches = s.progress.caches) := by
  obtain ⟨o, pre, -, hbefore⟩ | ⟨hbusy, -, ⟨hstatus, hcaches⟩ | ⟨hstatus, hcaches⟩⟩ := h
  · exact ⟨fun ⟨hidle, _⟩ => absurd (hbefore.busy.symm.trans hidle) nofun, fun _ => hbefore.caches⟩
  · refine ⟨fun _ => hcaches, ?_⟩
    rintro (hb | hne)
    · exact absurd (hbusy.symm.trans hb) nofun
    · exact absurd hstatus hne
  · exact ⟨fun ⟨_, hok⟩ => absurd hok hstatus, fun _ => hcaches⟩

/-- A ready block that runs bus steps and one assignment behind them changes the caches exactly where it ends with success. -/
theorem caches_of_exec {i : Instr} {pre : List MicroOp} {t : State} (hc : isCommand i = true)
    (hw : i.wf s.cfg.widths = true) (h : s.Ready) (hi : microOf s.cfg i = pre ++ [op])
    (hpre : ∀ o ∈ pre, isBusStep o = true) (hop : writesCache op = true) (he : exec i s = .next t) :
    (t.busy = false ∧ t.status = 0x00 → t.progress.caches = (s.progress.pass op).caches) ∧
    (t.busy = true ∨ t.status ≠ 0x00 → t.progress.caches = s.progress.caches) := by
  rw [exec_of_ready hc hw h, hi] at he
  cases he
  have hstart : BeforeCommit s pre { s with busy := true, latch := some i } := ⟨rfl, rfl, hpre⟩
  exact (run_keeps (ReachedByCommit s op) (fun _ _ _ _ ha hr => hr.of_perform hop ha) _ _
    (hstart.reached_advance hop)).caches

end

/-- The bus steps of `SetMode` (R121). -/
theorem setModeSeq_eq_append (c : ChipMap) (m : Mode) :
    setModeSeq c m = (applyHeader c ++ wrLit c.reg.opMode (modeByte c m)) ++ [.setMode m] := by
  rw [setModeSeq, List.append_assoc]

/-- The bus steps of `SetFrequency` (R124). -/
theorem setFrequencySeq_eq_append (c : ChipMap) (f : BitVec 24) :
    setFrequencySeq c f = (wrLit c.reg.frfMsb (frfMsb f) ++ (wrLit (c.reg.frfMsb + 1) (frfMid f) ++
      wrLit (c.reg.frfMsb + 2) (frfLsb f))) ++ [.setFreq f] := by
  simp only [setFrequencySeq, List.append_assoc]

/-- Settles O29: the assignment to `MODE` is the last micro-step, behind bus steps only. -/
theorem setModeCommitsOnSuccessOnly : Obligations.SetModeCommitsOnSuccessOnly := by
  unfold Obligations.SetModeCommitsOnSuccessOnly
  intro s t m md h hm he
  obtain ⟨hmode, hle⟩ := modeOf_of_mem hm
  have hi := (microOf_setMode hmode s.cfg).trans (setModeSeq_eq_append _ md)
  have hbus := List.forall_mem_append.mpr ⟨fieldWrite_isBusStep s.cfg.chip.reg.mc1 s.cfg.chip.hdrMask .header,
    wrLit_isBusStep s.cfg.chip.reg.opMode (modeByte s.cfg.chip md)⟩
  obtain ⟨hsuccess, hother⟩ := caches_of_exec rfl (wf_setMode hle _) h hi hbus rfl he
  exact ⟨fun hend => congrArg Prod.fst (hsuccess hend), fun hend => congrArg Prod.fst (hother hend)⟩

/-- Settles O32: the assignment to `FREQ` is the last micro-step, behind bus steps only. -/
theorem setFrequencyCommitsOnSuccessOnly : Obligations.SetFrequencyCommitsOnSuccessOnly := by
  unfold Obligations.SetFrequencyCommitsOnSuccessOnly
  intro s t f h hf he
  have hi := setFrequencySeq_eq_append s.cfg.chip f
  have hbus := List.forall_mem_append.mpr ⟨wrLit_isBusStep s.cfg.chip.reg.frfMsb (frfMsb f),
    List.forall_mem_append.mpr ⟨wrLit_isBusStep (s.cfg.chip.reg.frfMsb + 1) (frfMid f),
      wrLit_isBusStep (s.cfg.chip.reg.frfMsb + 2) (frfLsb f)⟩⟩
  obtain ⟨hsuccess, hother⟩ := caches_of_exec (i := .setFrequency f) rfl (wf_setFrequency hf) h hi hbus rfl he
  exact ⟨fun hend => congrArg Prod.snd (hsuccess hend), fun hend => congrArg Prod.snd (hother hend)⟩

end Sys2Proof.Machine
end

section
/-! The getters when their reads succeed (43_getters.md R150 to R154): what reads leave at the end of an accepted micro-sequence,
delivered or aborted, and the five commands (O38, O39, O40). -/

namespace Sys2Proof.Machine

/-! ### The two ends -/

/-- Where an accepted command reaches the delivery of its result, it is done. -/
theorem run_ret_saw {s : State} (h : s.Idle) (i : Option Instr) (n : Nat) (w : Work) (evs : List Event) (rest : List Reply)
    (r : ResultSrc) :
    run n (advance [.ret r] (State.saw { s with busy := true, latch := i } w evs rest)) =
      s.done (State.resultOf { s with work := w } r) w evs rest := by
  rw [run_advance_ret, complete_saw s _ _ _ _ _ h]
  rfl

/-- An abort is over, whatever replies are left. -/
theorem run_abort (n : Nat) (s : State) (e : Err) : run n (s.abort e) = s.abort e :=
  run_of_upc_nil n _ rfl

/-- Where an accepted command other than `INIT` finds no bandwidth, it ends with that error (60_exceptions.md R184, R190). -/
theorem abort_bandwidthUnknown_saw {s : State} (h : s.Idle) {i : Instr} (hi : isInit (some i) = false) (w : Work)
    (evs : List Event) (rest : List Reply) (b : Byte) :
    (State.saw { s with busy := true, latch := some i } w evs rest).abort (.bandwidthUnknown b) =
      s.doneErr 0x82 (b.setWidth 32) w evs rest := by
  obtain ⟨hbusy, hupc, hlatch⟩ := h
  simp [State.saw, State.abort, State.doneErr, State.done, Err.code, Err.info, csAfter, Err.isLink, rstAfter, lifeAfter, hi,
    hbusy, hupc, hlatch]

/-! ### One read -/

/-- The high nibble zero-extended. -/
theorem ofNat_highNibble (b : Byte) : BitVec.ofNat 32 (highNibble b) = (b.extractLsb' 4 4).setWidth 32 := by
  rw [highNibble_eq_extract, BitVec.ofNat_toNat]

/-- A ready block that has the answer of a command's one read delivers what the command makes of the byte. -/
theorem exec_of_rd_ret {i : Instr} {a : RegAddr} {r : ResultSrc} {s : State} {p : Byte × Byte} {rest : List Reply}
    (hc : isCommand i = true) (hw : i.wf s.cfg.widths = true) (h : s.Ready)
    (hi : microOf s.cfg i = rd a .regT ++ [.ret r]) (hr : s.replies = txn p ++ rest) :
    exec i s = .next (s.done (State.resultOf { s with work := { s.work with rx := p.2, t := p.2 } } r)
      { s.work with rx := p.2, t := p.2 } (rdEv a p) rest) := by
  rw [exec_of_ready hc hw h, start_eq_run_saw i _ hr, hi, rd_step, store_regT_saw, run_ret_saw h.1]
  rfl

/-- Settles O38: each of the three is one read, and what it delivers is the formula of its rule at the byte read. -/
theorem singleReadGettersDeliver : Obligations.SingleReadGettersDeliver := by
  unfold Obligations.SingleReadGettersDeliver
  intro s p rest h hr
  have hsf := exec_of_rd_ret (i := .getSf) (r := .spreading) rfl rfl h rfl hr
  have hrssi := exec_of_rd_ret (i := .getRssi) (r := .rssi) rfl rfl h rfl hr
  have hsnr := exec_of_rd_ret (i := .getSnr) (r := .regT) rfl rfl h rfl hr
  rw [← ofNat_highNibble]
  exact ⟨⟨_, hsf⟩, ⟨_, hrssi⟩, ⟨_, hsnr⟩⟩

/-! ### The bandwidth, read last -/

/-- The table has nothing behind its ninth value (30_encoding.md R81). -/
theorem bwHz_eq_none {i : Nat} (h : 8 < i) : bwHz i = none :=
  List.getElem?_eq_none (Nat.succ_le_of_lt h)

/-- The index an unknown bandwidth reports is the nibble read (60_exceptions.md R190). -/
theorem setWidth_ushiftRight_four (b : Byte) : (b >>> 4).setWidth 32 = (b.extractLsb' 4 4).setWidth 32 := by
  rw [← ofNat_highNibble, highNibble, BitVec.ofNat_toNat]

/-- `ReadBwHz` where the table has no such index (42_mode_config.md R129). -/
theorem readBwHz_step_unknown (s : State) (w : Work) (evs : List Event) (c : ChipMap) {p : Byte × Byte} (ops : List MicroOp)
    (rest : List Reply) (hp : 8 < (p.2.extractLsb' 4 4).toNat) :
    run (txn p ++ rest).length (advance (readBwHz c ++ ops) (s.saw w evs (txn p ++ rest))) =
      (s.saw { w with rx := p.2, t := p.2 } (evs ++ rdEv c.reg.mc1 p) rest).abort (.bandwidthUnknown (p.2 >>> 4)) := by
  rw [← highNibble_eq_extract] at hp
  rw [readBwHz, List.append_assoc, rd_step, store_regT_saw, List.singleton_append, advance, saw_work, bwHz_eq_none hp]
  exact run_abort _ _ _

/-- Command `i`, accepted at `s`, has `ReadBwHz` and the delivery of `r` left, with the events `evs` seen, the working registers
`w`, and the replies `p` and `rest` to come. -/
def ReachesBandwidth (s : State) (i : Instr) (r : ResultSrc) (w : Work) (evs : List Event) (p : Byte × Byte)
    (rest : List Reply) : Prop :=
  s.start i (microOf s.cfg i) =
    run (txn p ++ rest).length (advance (readBwHz s.cfg.chip ++ [.ret r])
      (State.saw { s with busy := true, latch := some i } w evs (txn p ++ rest)))

section
variable {s : State} {i : Instr} {r : ResultSrc} {w : Work} {evs : List Event} {p : Byte × Byte} {rest : List Reply}

/-- There it delivers its result, if the table has the index read. -/
theorem ReachesBandwidth.exec_done (hb : ReachesBandwidth s i r w evs p rest) (hc : isCommand i = true)
    (hw : i.wf s.cfg.widths = true) (h : s.Ready) {hz : Nat} (hp : bwHz (p.2.extractLsb' 4 4).toNat = some hz) :
    exec i s = .next (s.done (State.resultOf { s with work := { w with rx := p.2, t := p.2, hz := hz } } r)
      { w with rx := p.2, t := p.2, hz := hz } (evs ++ rdEv s.cfg.chip.reg.mc1 p) rest) := by
  rw [← highNibble_eq_extract] at hp
  rw [exec_of_ready hc hw h, hb, readBwHz_step _ _ _ _ _ _ hp, run_ret_saw h.1]

/-- Otherwise it ends with `BandwidthUnknown` and the index. -/
theorem ReachesBandwidth.exec_doneErr (hb : ReachesBandwidth s i r w evs p rest) (hc : isCommand i = true)
    (hi : isInit (some i) = false) (hw : i.wf s.cfg.widths = true) (h : s.Ready) (hp : 8 < (p.2.extractLsb' 4 4).toNat) :
    exec i s = .next (s.doneErr 0x82 ((p.2.extractLsb' 4 4).setWidth 32) { w with rx := p.2, t := p.2 }
      (evs ++ rdEv s.cfg.chip.reg.mc1 p) rest) := by
  rw [exec_of_ready hc hw h, hb, readBwHz_step_unknown _ _ _ _ _ _ hp, abort_bandwidthUnknown_saw h.1 hi,
    setWidth_ushiftRight_four]

end

/-- `GET_BW` is there on acceptance (43_getters.md R151). -/
theorem reachesBandwidth_getBw {s : State} {p : Byte × Byte} {rest : List Reply} (hr : s.replies = txn p ++ rest) :
    ReachesBandwidth s .getBw .bandwidth s.work [] p rest :=
  start_eq_run_saw .getBw _ hr

/-- Settles O39: the micro-sequence is `ReadBwHz` and the delivery of what it found. -/
theorem getBwDeliversTableValue : Obligations.GetBwDeliversTableValue := by
  unfold Obligations.GetBwDeliversTableValue
  intro s p rest h hr
  have hb := reachesBandwidth_getBw hr
  exact ⟨fun hz hp => ⟨_, hb.exec_done rfl rfl h hp⟩, fun hp => ⟨_, hb.exec_doneErr rfl rfl rfl h hp⟩⟩

/-- A byte read into `M` or `MI` is one more change of the working registers. -/
theorem store_regM_saw (s : State) (w : Work) (evs : List Event) (rest : List Reply) (b : Byte) :
    (s.saw w evs rest).store .regM b = s.saw { w with m := b } evs rest := rfl

theorem store_regMi_saw (s : State) (w : Work) (evs : List Event) (rest : List Reply) (b : Byte) :
    (s.saw w evs rest).store .regMi b = s.saw { w with mi := b } evs rest := rfl

/-- The reads of the three bytes of the frequency error, top byte first (43_getters.md R154). -/
theorem freqErrorReads_step (s : State) (w : Work) (evs : List Event) (c : ChipMap) (pm pi pl : Byte × Byte)
    (ops : List MicroOp) (rest : List Reply) :
    run (txn pm ++ (txn pi ++ (txn pl ++ rest))).length
        (advance (rd c.reg.freqErrorMsb .regM ++ (rd c.reg.freqErrorMid .regMi ++ (rd c.reg.freqErrorLsb .regL ++ ops)))
          (s.saw w evs (txn pm ++ (txn pi ++ (txn pl ++ rest))))) =
      run rest.length (advance ops (s.saw { w with rx := pl.2, m := pm.2, mi := pi.2, l := pl.2 }
        (evs ++ rdEv c.reg.freqErrorMsb pm ++ rdEv c.reg.freqErrorMid pi ++ rdEv c.reg.freqErrorLsb pl) rest)) := by
  rw [rd_step, store_regM_saw, rd_step, store_regMi_saw, rd_step]
  rfl

/-- `GET_FREQ_ERROR` is there after its first three reads (43_getters.md R154). -/
theorem reachesBandwidth_getFreqError {s : State} {pm pi pl pb : Byte × Byte} {rest : List Reply}
    (hr : s.replies = txn pm ++ (txn pi ++ (txn pl ++ (txn pb ++ rest)))) :
    ReachesBandwidth s .getFreqError .freqError { s.work with rx := pl.2, m := pm.2, mi := pi.2, l := pl.2 }
      (rdEv s.cfg.chip.reg.freqErrorMsb pm ++ rdEv s.cfg.chip.reg.freqErrorMid pi ++ rdEv s.cfg.chip.reg.freqErrorLsb pl)
      pb rest :=
  (start_eq_run_saw .getFreqError _ hr).trans (freqErrorReads_step _ _ [] s.cfg.chip pm pi pl _ _)

/-- Settles O40: three reads, `ReadBwHz`, and the delivery of the formula at the four values. -/
theorem getFreqErrorScalesOnce : Obligations.GetFreqErrorScalesOnce := by
  unfold Obligations.GetFreqErrorScalesOnce
  intro s pm pi pl pb rest h hr
  have hb := reachesBandwidth_getFreqError hr
  simp only [← List.append_assoc]
  exact ⟨fun hz hp => ⟨_, hb.exec_done rfl rfl h hp⟩, fun hp => ⟨_, hb.exec_doneErr rfl rfl rfl h hp⟩⟩

end Sys2Proof.Machine
end

section
/-! The flag commands (O49) and the polls (O43, O45, O46) when their primitives succeed (44_packet_io.md R160, R162 to R164, R166 to
R168): the sub-sequences they share, and the status reads of a poll by induction on those that find the bit clear. -/

namespace Sys2Proof.Machine

/-! ### The flag commands -/

/-- Where an accepted command has no micro-step left, it is done. -/
theorem run_nil_saw {s : State} (h : s.Idle) (i : Option Instr) (n : Nat) (w : Work) (evs : List Event) (rest : List Reply) :
    run n (advance [] (State.saw { s with busy := true, latch := i } w evs rest)) = s.done 0 w evs rest := by
  rw [run_advance_nil, complete_saw s _ _ _ _ _ h]

/-- `ClearIrq` (44_packet_io.md R160): the flags are read, and the same byte is written back. -/
theorem clearIrqSeq_step (s : State) (w : Work) (evs : List Event) (c : ChipMap) (p q : Byte × Byte) (ops : List MicroOp)
    (rest : List Reply) :
    run (txn p ++ (txn q ++ rest)).length (advance (clearIrqSeq c ++ ops) (s.saw w evs (txn p ++ (txn q ++ rest)))) =
      run rest.length (advance ops (s.saw { w with rx := p.2, t := p.2 }
        (evs ++ rdEv c.reg.irqFlags p ++ wrEv c.reg.irqFlags p.2 q) rest)) := by
  rw [clearIrqSeq, List.append_assoc, rd_step, store_regT_saw, wr_step]
  rfl

/-- `PacketReady` (R162): `ClearIrq`, then the count into `N`. -/
theorem packetReadySeq_step (s : State) (w : Work) (evs : List Event) (c : ChipMap) (p q r : Byte × Byte) (ops : List MicroOp)
    (rest : List Reply) :
    run (txn p ++ (txn q ++ (txn r ++ rest))).length
        (advance (packetReadySeq c ++ ops) (s.saw w evs (txn p ++ (txn q ++ (txn r ++ rest))))) =
      run rest.length (advance ops (s.saw { w with rx := r.2, t := p.2, n := r.2 }
        (evs ++ rdEv c.reg.irqFlags p ++ wrEv c.reg.irqFlags p.2 q ++ rdEv c.reg.rxNbBytes r) rest)) := by
  rw [packetReadySeq, List.append_assoc, clearIrqSeq_step, rd_step]
  rfl

/-- `zext_32(T[6])` (R168). -/
theorem readyBit_eq_extract (b : Byte) : (if receiveDone b then (1 : Word) else 0) = (b.extractLsb' 6 1).setWidth 32 := by
  revert b
  decide

/-- Settles O49: two of the commands are one read and the delivery of its byte or bit, the third is `ClearIrq`. -/
theorem flagCommandsReadAndClear : Obligations.FlagCommandsReadAndClear := by
  unfold Obligations.FlagCommandsReadAndClear
  intro s p q rest h
  refine ⟨fun hr => ⟨?_, ?_⟩, fun hr => ?_⟩
  · exact ⟨_, exec_of_rd_ret (i := .irqFlags) (r := .regT) rfl rfl h rfl hr⟩
  · rw [← readyBit_eq_extract]
    exact ⟨_, exec_of_rd_ret (i := .isPacketReady) (r := .readyBit) rfl rfl h rfl hr⟩
  · have hseq : microOf s.cfg .clearIrq = clearIrqSeq s.cfg.chip ++ [] := (List.append_nil _).symm
    have hstep := clearIrqSeq_step { s with busy := true, latch := some .clearIrq } s.work [] s.cfg.chip p q [] rest
    rw [run_nil_saw h.1] at hstep
    exact ⟨_, by rw [exec_of_ready rfl rfl h, start_eq_run_saw _ _ hr, hseq]; exact congrArg _ hstep⟩

/-! ### The status reads of the polls -/

/-- A delay whose return is at hand, after other events. -/
theorem delay_step (s : State) (w : Work) {evs : List Event} (h : evs ≠ []) (ms : Nat) (ops : List MicroOp)
    (rest : List Reply) :
    run (Reply.delay :: rest).length (advance (.delay ms :: ops) (s.saw w evs (.delay :: rest))) =
      run rest.length (advance ops (s.saw w (evs ++ [.delay ms]) rest)) := by
  rw [List.length_cons, run_delay rest.length _ ms ops rest rfl, afterDelay, ← advance_upc ops _ s.upc]
  congr 2
  simp [State.saw, State.log, h]

/-- After a status read that finds the bit clear, with `CNT` and the number of reads to come as `Left` says, the test `test`
waits `ms` and reads again, with one read less to come. -/
def LoopsBack (test : MicroOp) (ms : Nat) (Left : Nat → Nat → Prop) : Prop :=
  ∀ (s : State) (w : Work) (evs : List Event) (rest : List Reply) (tail : List MicroOp) (n : Nat),
    receiveDone w.t = false → Left w.cnt (n + 1) →
    ∃ w', Left w'.cnt n ∧ advance (test :: tail) (s.saw w evs rest) =
      advance (.delay ms :: (rd s.cfg.chip.reg.irqFlags .regT ++ test :: tail)) (s.saw w' evs rest)

/-- `POLL_IRQ` does so for ever (44_packet_io.md R163, 70_reset_and_hazards.md R219). -/
theorem loopsBack_pollTest : LoopsBack .pollTest 100 fun _ _ => True := by
  intro s w evs rest tail n hclear _
  refine ⟨w, trivial, ?_⟩
  exact if_neg (by rw [saw_work, hclear]; exact Bool.false_ne_true)

/-- `POLL_IRQ_T` does so while `CNT` is below its bound (44_packet_io.md R164). -/
theorem loopsBack_pollTestBounded {b m : Nat} (h : m ≤ b) :
    LoopsBack (.pollTestBounded b) 1 fun cnt n => cnt + n = m := by
  intro s w evs rest tail n hclear hleft
  refine ⟨{ w with cnt := w.cnt + 1 }, by simp only; omega, ?_⟩
  have hlt : ¬ b ≤ w.cnt := by omega
  simp only [advance, saw_work, hclear, hlt, Bool.false_eq_true, if_false]
  rfl

/-- Status reads that find the bit clear, each with its delay, come back to the status read. -/
theorem pollScript_step {test : MicroOp} {ms : Nat} {Left : Nat → Nat → Prop} (hloop : LoopsBack test ms Left) (s : State)
    (w : Work) (evs : List Event) (cs : List (Byte × Byte)) (tail : List MicroOp) (rest : List Reply)
    (hclear : ∀ c ∈ cs, receiveDone c.2 = false) (hleft : Left w.cnt cs.length) :
    ∃ w', Left w'.cnt 0 ∧
      run (pollScript cs ++ rest).length
          (advance (rd s.cfg.chip.reg.irqFlags .regT ++ test :: tail) (s.saw w evs (pollScript cs ++ rest))) =
        run rest.length (advance (rd s.cfg.chip.reg.irqFlags .regT ++ test :: tail)
          (s.saw w' (evs ++ pollEvents s.cfg.chip.reg.irqFlags ms cs) rest)) := by
  induction cs generalizing w evs with
  | nil => exact ⟨w, hleft, by rw [pollEvents, List.append_nil]; rfl⟩
  | cons c cs ih =>
    obtain ⟨w₁, hleft₁, hback⟩ := hloop s { w with rx := c.2, t := c.2 } (evs ++ rdEv s.cfg.chip.reg.irqFlags c)
      (.delay :: (pollScript cs ++ rest)) tail cs.length (hclear c (by simp)) hleft
    obtain ⟨w₂, hleft₂, hrest⟩ := ih w₁ (evs ++ rdEv s.cfg.chip.reg.irqFlags c ++ [.delay ms])
      (fun c hc => hclear c (by simp [hc])) hleft₁
    refine ⟨w₂, hleft₂, ?_⟩
    rw [pollScript, List.append_assoc, List.cons_append, rd_step, store_regT_saw, hback, delay_step _ _ (by simp [rdEv]), hrest,
      pollEvents]
    simp only [List.append_assoc, List.cons_append, List.nil_append]

/-- A block that has accepted command `i` and switched to continuous receive. -/
def State.receiving (s : State) (i : Instr) : State :=
  { s with busy := true, latch := some i, mode := .receiveContinuous }

/-- Command `i`, accepted at `s`, is in continuous receive and about to read the status, with `test` and the delivery of the
count behind the read, the events `evs` seen, the working registers `w`, and `replies` to come. -/
def ReachesStatusRead (s : State) (i : Instr) (test : MicroOp) (w : Work) (evs : List Event) (replies : List Reply) : Prop :=
  s.start i (microOf s.cfg i) =
    run replies.length (advance (rd s.cfg.chip.reg.irqFlags .regT ++ test :: (packetReadySeq s.cfg.chip ++ [.ret .regN]))
      ((s.receiving i).saw w evs replies))

/-- `POLL_IRQ` is there after the switch to continuous receive (44_packet_io.md R163). -/
theorem reachesStatusRead_pollIrq {s : State} {ps : List (Byte × Byte)} {replies : List Reply}
    (hps : ps.length = fieldTxns (modeTriples s.cfg.chip s.hdr .receiveContinuous)) (hr : s.replies = script ps ++ replies) :
    ∃ w, ReachesStatusRead s .pollIrq .pollTest w (fieldEvents (modeTriples s.cfg.chip s.hdr .receiveContinuous) ps) replies := by
  obtain ⟨w, hmode⟩ := performs_setModeSeq { s with busy := true, latch := some .pollIrq } .receiveContinuous s.work [] ps replies
    (rd s.cfg.chip.reg.irqFlags .regT ++ .pollTest :: (packetReadySeq s.cfg.chip ++ [.ret .regN])) hps
  exact ⟨w, (start_eq_run_saw _ _ hr).trans hmode⟩

/-- So is `POLL_IRQ_T`, with `CNT` zero (R164). -/
theorem reachesStatusRead_pollIrqT {s : State} {n : BitVec 24} {ps : List (Byte × Byte)} {replies : List Reply}
    (hps : ps.length = fieldTxns (modeTriples s.cfg.chip s.hdr .receiveContinuous)) (hr : s.replies = script ps ++ replies) :
    ∃ w, w.cnt = 0 ∧ ReachesStatusRead s (.pollIrqT n) (.pollTestBounded (pollBound s.cfg n)) w
      (fieldEvents (modeTriples s.cfg.chip s.hdr .receiveContinuous) ps) replies := by
  obtain ⟨w, hmode⟩ := performs_setModeSeq { s with busy := true, latch := some (.pollIrqT n) } .receiveContinuous s.work [] ps
    replies (.clearCnt :: (rd s.cfg.chip.reg.irqFlags .regT ++ .pollTestBounded (pollBound s.cfg n) ::
      (packetReadySeq s.cfg.chip ++ [.ret .regN]))) hps
  exact ⟨{ w with cnt := 0 }, rfl, (start_eq_run_saw _ _ hr).trans hmode⟩

section
variable {s : State} {i : Instr} {test : MicroOp} {w : Work} {evs : List Event}

/-- It is there again after status reads that find the bit clear. -/
theorem ReachesStatusRead.pollScript {ms : Nat} {Left : Nat → Nat → Prop} {cs : List (Byte × Byte)} {rest : List Reply}
    (h : ReachesStatusRead s i test w evs (pollScript cs ++ rest)) (hloop : LoopsBack test ms Left)
    (hclear : ∀ c ∈ cs, receiveDone c.2 = false) (hleft : Left w.cnt cs.length) :
    ∃ w', Left w'.cnt 0 ∧ ReachesStatusRead s i test w' (evs ++ pollEvents s.cfg.chip.reg.irqFlags ms cs) rest := by
  obtain ⟨w', hleft', hrun⟩ := pollScript_step hloop _ w evs cs _ rest hclear hleft
  exact ⟨w', hleft', h.trans hrun⟩

/-- A test that a set bit passes. -/
def PassesWhenDone (test : MicroOp) : Prop :=
  ∀ (s : State) (tail : List MicroOp), receiveDone s.work.t = true → advance (test :: tail) s = advance tail s

theorem passesWhenDone_pollTest : PassesWhenDone .pollTest := fun _ _ h => if_pos h

/-- The bit wins over an expired count (60_exceptions.md R191). -/
theorem passesWhenDone_pollTestBounded (b : Nat) : PassesWhenDone (.pollTestBounded b) := fun _ _ h => if_pos h

/-- Where the status read finds the bit set, the flags are cleared and the count is read and delivered (44_packet_io.md R162). -/
theorem ReachesStatusRead.exec_done {p pi qi pn : Byte × Byte} {rest : List Reply}
    (hs : ReachesStatusRead s i test w evs (txn p ++ (txn pi ++ (txn qi ++ (txn pn ++ rest))))) (hc : isCommand i = true)
    (hw : i.wf s.cfg.widths = true) (h : s.Ready) (htest : PassesWhenDone test) (hdone : receiveDone p.2 = true) :
    ∃ w', exec i s = .next { s.done (pn.2.setWidth 32) w'
      (evs ++ rdEv s.cfg.chip.reg.irqFlags p ++ rdEv s.cfg.chip.reg.irqFlags pi ++ wrEv s.cfg.chip.reg.irqFlags pi.2 qi ++
        rdEv s.cfg.chip.reg.rxNbBytes pn) rest with mode := .receiveContinuous } := by
  have hend (w : Work) (evs : List Event) := run_ret_saw (s := { s with mode := .receiveContinuous }) h.1 (some i) rest.length
    w evs rest .regN
  have hrun : exec i s = .next (run rest.length (advance [.ret .regN]
      ((s.receiving i).saw { w with rx := pn.2, t := pi.2, n := pn.2 }
        (evs ++ rdEv s.cfg.chip.reg.irqFlags p ++ rdEv s.cfg.chip.reg.irqFlags pi ++ wrEv s.cfg.chip.reg.irqFlags pi.2 qi ++
          rdEv s.cfg.chip.reg.rxNbBytes pn) rest))) := by
    rw [exec_of_ready hc hw h, hs, rd_step, store_regT_saw, htest, packetReadySeq_step]
    exact hdone
  exact ⟨_, hrun.trans (congrArg Host.Outcome.next (hend _ _))⟩

end

/-- Settles O43: the loop comes back to its status read after every read that finds the bit clear, and delivers at the first
that finds it set. -/
theorem pollIrqDeliversCount : Obligations.PollIrqDeliversCount := by
  unfold Obligations.PollIrqDeliversCount
  intro s ps cs p pi qi pn rest h hps hclear hdone hr
  obtain ⟨w, hstart⟩ := reachesStatusRead_pollIrq hps hr
  obtain ⟨w', -, hread⟩ := hstart.pollScript loopsBack_pollTest hclear trivial
  simpa only [List.append_assoc] using hread.exec_done rfl rfl h passesWhenDone_pollTest hdone

/-- A timeout operand of `TIMEOUT_W` bits is legal. -/
theorem wf_pollIrqT {n : BitVec 24} {ws : Widths} (h : n.toNat < 2 ^ ws.timeoutW) : (Instr.pollIrqT n).wf ws = true := by
  simpa [Instr.wf] using h

/-- Settles O45: `CNT` is the number of reads that found the bit clear, at most the bound, so the loop comes back after each. -/
theorem pollIrqTDeliversCount : Obligations.PollIrqTDeliversCount := by
  unfold Obligations.PollIrqTDeliversCount
  intro s n ps cs p pi qi pn rest h hn hps hcs hclear hdone hr
  obtain ⟨w, hcnt, hstart⟩ := reachesStatusRead_pollIrqT (n := n) hps hr
  obtain ⟨w', -, hread⟩ := hstart.pollScript (loopsBack_pollTestBounded hcs) hclear (by rw [hcnt, Nat.zero_add])
  simpa only [List.append_assoc] using hread.exec_done rfl (wf_pollIrqT hn) h (passesWhenDone_pollTestBounded _) hdone

/-- An accepted command other than `INIT` that aborts with none of the pin and transport faults (60_exceptions.md R184). -/
theorem abort_saw {s : State} (h : s.Idle) {i : Instr} (hi : isInit (some i) = false) {e : Err} (he : e.isLink = false)
    (w : Work) (evs : List Event) (rest : List Reply) :
    (State.saw { s with busy := true, latch := some i } w evs rest).abort e = s.doneErr e.code e.info w evs rest := by
  obtain ⟨hbusy, hupc, hlatch⟩ := h
  have hreset : e ≠ .resetPin := by rintro rfl; cases he
  simp [State.saw, State.abort, State.doneErr, State.done, csAfter, rstAfter, lifeAfter, he, hreset, hi, hbusy, hupc, hlatch]

/-- A status read that finds the bit clear and the count expired (R164). -/
theorem advance_pollTestBounded_expired {s : State} {b : Nat} (tail : List MicroOp) (hclear : receiveDone s.work.t = false)
    (hcnt : b ≤ s.work.cnt) : advance (.pollTestBounded b :: tail) s = s.abort .receiveTimeout := by
  simp [advance, hclear, hcnt]

/-- Settles O46: after the `B` delays `CNT` is the bound, so the next read that finds the bit clear aborts. -/
theorem pollIrqTTimesOut : Obligations.PollIrqTTimesOut := by
  unfold Obligations.PollIrqTTimesOut
  intro s n ps cs p rest h hn hps hcs hclear hp hr
  obtain ⟨w, hcnt, hstart⟩ := reachesStatusRead_pollIrqT (n := n) hps hr
  obtain ⟨w', hexpired, hread⟩ := hstart.pollScript (loopsBack_pollTestBounded hcs.le) hclear (by rw [hcnt, Nat.zero_add])
  have hbound : pollBound s.cfg n ≤ w'.cnt := (hexpired.trans hcs).ge
  have hend (w : Work) (evs : List Event) := abort_saw (s := { s with mode := .receiveContinuous }) h.1 (i := .pollIrqT n) rfl
    (e := .receiveTimeout) rfl w evs rest
  have hrun : exec (.pollIrqT n) s = .next (((s.receiving (.pollIrqT n)).saw { w' with rx := p.2, t := p.2 }
      (fieldEvents (modeTriples s.cfg.chip s.hdr .receiveContinuous) ps ++ pollEvents s.cfg.chip.reg.irqFlags 1 cs ++
        rdEv s.cfg.chip.reg.irqFlags p) rest).abort .receiveTimeout) := by
    rw [exec_of_ready rfl (wf_pollIrqT hn) h, hread, rd_step, store_regT_saw, advance_pollTestBounded_expired,
      run_abort]
    · exact hp
    · exact hbound
  rw [← List.append_assoc]
  exact ⟨_, hrun.trans (congrArg Host.Outcome.next (hend _ _))⟩

end Sys2Proof.Machine
end

section
/-! `TRANSMIT` (O41) and `READ_PACKET` (O47) when their primitives succeed (44_packet_io.md R161, R165): the loops over the FIFO by
induction on the bytes still to come, and the stretches before and behind them. -/

namespace Sys2Proof.Machine

/-- A byte read into `N` or `CUR` is one more change of the working registers. -/
theorem store_regN_saw (s : State) (w : Work) (evs : List Event) (rest : List Reply) (b : Byte) :
    (s.saw w evs rest).store .regN b = s.saw { w with n := b } evs rest := rfl

theorem store_regCur_saw (s : State) (w : Work) (evs : List Event) (rest : List Reply) (b : Byte) :
    (s.saw w evs rest).store .regCur b = s.saw { w with cur := b } evs rest := rfl

/-! ### Counting in `IDX` -/

/-- Below a byte `IDX` counts up without overflow. -/
theorem toNat_idx_succ {idx : BitVec 9} {n : Byte} (h : idx.toNat < n.toNat) : (idx + 1).toNat = idx.toNat + 1 := by
  have hn := n.isLt
  have hlt : idx.toNat + 1 < 2 ^ 9 := by omega
  exact (BitVec.toNat_add idx 1).trans (Nat.mod_eq_of_lt hlt)

/-! ### `TRANSMIT` -/

/-- A pass of the payload loop while `IDX` is below `N` (44_packet_io.md R161). -/
theorem advance_txLoop_lt {s : State} (tail : List MicroOp) (h : s.work.idx.toNat < s.work.n.toNat) :
    advance (.txLoop :: tail) s = advance (wr s.cfg.chip.reg.fifo .txByte ++ (.nextIdx :: .txLoop :: tail)) s := by
  rw [advance, if_pos h, txBody, List.append_assoc]
  rfl

/-- The payload loop with as many answers to come as `IDX` is below `N` writes the bytes of `TXBUF` from `IDX` on in
ascending order. -/
theorem txLoop_step (s : State) (w : Work) (evs : List Event) (bs : List (Byte × Byte)) (tail : List MicroOp)
    (rest : List Reply) (hlen : w.idx.toNat + bs.length = w.n.toNat) :
    ∃ w', run (script bs ++ rest).length (advance (.txLoop :: tail) (s.saw w evs (script bs ++ rest))) =
      run rest.length (advance tail (s.saw w' (evs ++ payloadEvents s w.idx.toNat bs) rest)) := by
  induction bs generalizing w evs with
  | nil =>
    refine ⟨w, ?_⟩
    have hend : ¬ w.idx.toNat < w.n.toNat := by simpa using hlen.ge
    rw [payloadEvents, List.append_nil]
    exact congrArg (run rest.length) (if_neg hend)
  | cons b bs ih =>
    rw [List.length_cons] at hlen
    have hlt : w.idx.toNat < w.n.toNat := by omega
    have hidx := toNat_idx_succ hlt
    obtain ⟨w', hrest⟩ := ih { w with idx := w.idx + 1 } (evs ++ wrEv s.cfg.chip.reg.fifo (s.txAt w.idx.toNat) b)
      (by simp only [hidx]; omega)
    rw [hidx, List.append_assoc] at hrest
    refine ⟨w', ?_⟩
    rw [script, List.append_assoc, advance_txLoop_lt tail hlt, wr_step]
    exact hrest

/-- The payload is a matter of the FIFO's address and of the bytes of `TXBUF`. -/
theorem payloadEvents_congr {s t : State} (hcfg : t.cfg = s.cfg) (htx : t.txbuf = s.txbuf) (hres : t.resets = s.resets) (i : Nat)
    (bs : List (Byte × Byte)) : payloadEvents t i bs = payloadEvents s i bs := by
  induction bs generalizing i with
  | nil => rfl
  | cons b bs ih => simp only [payloadEvents, State.txAt, hcfg, htx, hres, ih]

/-- `TRANSMIT` from the clearing of the flags to the end of the payload (44_packet_io.md R161). -/
def transmitBody (c : ChipMap) : List MicroOp :=
  clearIrqSeq c ++ (wrLit c.reg.fifoAddrPtr 0x00 ++ (wrLit c.reg.payloadLength 0x00 ++
    (.loadTxLen :: (wr c.reg.fifo .regN ++ [.clearIdx, .txLoop]))))

/-- Before it stand the switch to Standby and the header again, behind it the switch to Transmit. -/
theorem transmitSeq_eq_append (c : ChipMap) :
    transmitSeq c = (setModeSeq c .standby ++ applyHeader c) ++ (transmitBody c ++ setModeSeq c .transmit) := by
  simp [transmitSeq, transmitBody]

/-- The one reading of `TXLEN` (10_state.md R19). -/
theorem advance_loadTxLen_saw (s : State) (w : Work) (evs : List Event) (ops : List MicroOp) (rest : List Reply) :
    advance (.loadTxLen :: ops) (s.saw w evs rest) = advance ops (s.saw { w with n := s.txlen } evs rest) := rfl

/-- `IDX <- 0`. -/
theorem advance_clearIdx_saw (s : State) (w : Work) (evs : List Event) (ops : List MicroOp) (rest : List Reply) :
    advance (.clearIdx :: ops) (s.saw w evs rest) = advance ops (s.saw { w with idx := 0 } evs rest) := rfl

/-- It writes the length byte and `TXBUF[0]` to `TXBUF[TXLEN − 1]`. -/
theorem transmitBody_step (s : State) (w : Work) (evs : List Event) (pi qi pp pl pn : Byte × Byte) (bs : List (Byte × Byte))
    (tail : List MicroOp) (rest : List Reply) (hlen : bs.length = s.txlen.toNat) :
    ∃ w', run (txn pi ++ (txn qi ++ (txn pp ++ (txn pl ++ (txn pn ++ (script bs ++ rest)))))).length
        (advance (transmitBody s.cfg.chip ++ tail)
          (s.saw w evs (txn pi ++ (txn qi ++ (txn pp ++ (txn pl ++ (txn pn ++ (script bs ++ rest)))))))) =
      run rest.length (advance tail (s.saw w' (evs ++ rdEv s.cfg.chip.reg.irqFlags pi ++
        wrEv s.cfg.chip.reg.irqFlags pi.2 qi ++ wrEv s.cfg.chip.reg.fifoAddrPtr 0x00 pp ++
          wrEv s.cfg.chip.reg.payloadLength 0x00 pl ++ wrEv s.cfg.chip.reg.fifo s.txlen pn ++ payloadEvents s 0 bs) rest)) := by
  obtain ⟨w', hloop⟩ := txLoop_step s { w with rx := pi.2, t := pi.2, n := s.txlen, idx := 0 }
    (evs ++ rdEv s.cfg.chip.reg.irqFlags pi ++ wrEv s.cfg.chip.reg.irqFlags pi.2 qi ++ wrEv s.cfg.chip.reg.fifoAddrPtr 0x00 pp ++
      wrEv s.cfg.chip.reg.payloadLength 0x00 pl ++ wrEv s.cfg.chip.reg.fifo s.txlen pn) bs tail rest ((Nat.zero_add _).trans hlen)
  have hops : transmitBody s.cfg.chip ++ tail = clearIrqSeq s.cfg.chip ++ (wr s.cfg.chip.reg.fifoAddrPtr (.direct (.lit 0x00)) ++
      (wr s.cfg.chip.reg.payloadLength (.direct (.lit 0x00)) ++ (.loadTxLen :: (wr s.cfg.chip.reg.fifo .regN ++
        (.clearIdx :: .txLoop :: tail))))) := by simp [transmitBody, wrLit]
  refine ⟨w', Eq.trans ?_ hloop⟩
  rw [hops, clearIrqSeq_step, wr_step, wr_step, advance_loadTxLen_saw, wr_step, advance_clearIdx_saw]
  rfl

/-- A block that has accepted `TRANSMIT`, with `m` in `MODE`. -/
def State.transmitting (s : State) (m : Mode) : State :=
  { s with busy := true, latch := some .transmit, mode := m }

/-- An accepted `TRANSMIT` switches to Standby and writes the header again. -/
theorem start_transmit {s : State} {ps : List (Byte × Byte)} {replies : List Reply}
    (hps : ps.length = fieldTxns (modeTriples s.cfg.chip s.hdr .standby ++ headerTriples s.cfg.chip s.hdr))
    (hr : s.replies = script ps ++ replies) :
    ∃ w, s.start .transmit (transmitSeq s.cfg.chip) =
      run replies.length (advance (transmitBody s.cfg.chip ++ setModeSeq s.cfg.chip .transmit)
        ((s.transmitting .standby).saw w
          (fieldEvents (modeTriples s.cfg.chip s.hdr .standby ++ headerTriples s.cfg.chip s.hdr) ps) replies)) := by
  have hhead := (performs_setModeSeq (s.transmitting s.mode) .standby).append (performs_applyHeader (s.transmitting .standby))
  obtain ⟨w, hrun⟩ := hhead s.work [] ps replies (transmitBody s.cfg.chip ++ setModeSeq s.cfg.chip .transmit) hps
  exact ⟨w, by rw [start_eq_run_saw _ _ hr, transmitSeq_eq_append]; exact hrun⟩

/-- Behind the payload it switches to Transmit, and is done. -/
theorem run_setModeSeq_transmit {s : State} (h : s.Idle) (w : Work) (evs : List Event) {ts : List (Byte × Byte)}
    (rest : List Reply) (hts : ts.length = fieldTxns (modeTriples s.cfg.chip s.hdr .transmit)) :
    ∃ w', run (script ts ++ rest).length
        (advance (setModeSeq s.cfg.chip .transmit) ((s.transmitting .standby).saw w evs (script ts ++ rest))) =
      { s.done 0 w' (evs ++ fieldEvents (modeTriples s.cfg.chip s.hdr .transmit) ts) rest with mode := .transmit } := by
  obtain ⟨w', hrun⟩ := performs_setModeSeq (s.transmitting .standby) .transmit w evs ts rest [] hts
  rw [List.append_nil] at hrun
  exact ⟨w', hrun.trans (run_nil_saw (s := { s with mode := .transmit }) h _ _ _ _ _)⟩

/-- Settles O41: the stretch before the payload, the payload, and the switch to Transmit, each from where the last one ended. -/
theorem transmitSendsPayload : Obligations.TransmitSendsPayload := by
  unfold Obligations.TransmitSendsPayload
  intro s ps bs ts pi qi pp pl pn rest h hps hbs hts hr
  obtain ⟨w₁, hstart⟩ := start_transmit hps hr
  obtain ⟨w₂, hbody⟩ := transmitBody_step (s.transmitting .standby) w₁
    (fieldEvents (modeTriples s.cfg.chip s.hdr .standby ++ headerTriples s.cfg.chip s.hdr) ps) pi qi pp pl pn bs
    (setModeSeq s.cfg.chip .transmit) (script ts ++ rest) hbs
  rw [payloadEvents_congr (s := s) (t := s.transmitting .standby) rfl rfl rfl] at hbody
  obtain ⟨w₃, hend⟩ := run_setModeSeq_transmit h.1 w₂ _ rest hts
  have hrun := (hstart.trans hbody).trans hend
  simp only [List.append_assoc] at hrun
  exact ⟨w₃, (exec_of_ready (i := .transmit) rfl rfl h).trans (congrArg Host.Outcome.next hrun)⟩

/-! ### `READ_PACKET` -/

/-- A pass of the read-out loop while `IDX` is below `N` (44_packet_io.md R165). -/
theorem advance_rxLoop_lt {s : State} (tail : List MicroOp) (h : s.work.idx.toNat < s.work.n.toNat) :
    advance (.rxLoop :: tail) s = advance (rd s.cfg.chip.reg.fifo .rxByte ++ (.nextIdx :: .rxLoop :: tail)) s := by
  rw [advance, if_pos h, rxBody, List.append_assoc]
  rfl

/-- The read-out loop with as many bytes to come as `IDX` is below `N` puts them into `RXBUF` from `IDX` on; `N` stays. -/
theorem rxLoop_step (s : State) (w : Work) (evs : List Event) (bs : List (Byte × Byte)) (tail : List MicroOp)
    (rest : List Reply) (hlen : w.idx.toNat + bs.length = w.n.toNat) :
    ∃ w', w'.n = w.n ∧ run (script bs ++ rest).length (advance (.rxLoop :: tail) (s.saw w evs (script bs ++ rest))) =
      run rest.length (advance tail (State.saw { s with rxbuf := writeFrom s.rxbuf w.idx.toNat bs } w'
        (evs ++ readEvents s.cfg.chip.reg.fifo bs) rest)) := by
  induction bs generalizing s w evs with
  | nil =>
    refine ⟨w, rfl, ?_⟩
    have hend : ¬ w.idx.toNat < w.n.toNat := by simpa using hlen.ge
    rw [readEvents, List.append_nil]
    exact congrArg (run rest.length) (if_neg hend)
  | cons b bs ih =>
    rw [List.length_cons] at hlen
    have hlt : w.idx.toNat < w.n.toNat := by omega
    have hidx := toNat_idx_succ hlt
    obtain ⟨w', hn, hrest⟩ := ih { s with rxbuf := Buffer.write s.rxbuf w.idx.toNat b.2 }
      { w with rx := b.2, idx := w.idx + 1 } (evs ++ rdEv s.cfg.chip.reg.fifo b) (by simp only [hidx]; omega)
    rw [hidx, List.append_assoc] at hrest
    refine ⟨w', hn, ?_⟩
    rw [script, List.append_assoc, advance_rxLoop_lt tail hlt, rd_step]
    exact hrest

/-- `READ_PACKET` before its loop: the flags cleared, the count in `N`, the pointer at the packet (R165). -/
theorem readPacketSeq_step (s : State) (w : Work) (evs : List Event) (pi qi pn pc pw : Byte × Byte) (rest : List Reply) :
    run (txn pi ++ (txn qi ++ (txn pn ++ (txn pc ++ (txn pw ++ rest))))).length
        (advance (readPacketSeq s.cfg.chip) (s.saw w evs (txn pi ++ (txn qi ++ (txn pn ++ (txn pc ++ (txn pw ++ rest))))))) =
      run rest.length (advance (.rxLoop :: (wrLit s.cfg.chip.reg.fifoAddrPtr 0x00 ++ [.setRxLen, .ret .regN]))
        (s.saw { w with rx := pc.2, t := pi.2, n := pn.2, cur := pc.2, idx := 0 } (evs ++ rdEv s.cfg.chip.reg.irqFlags pi ++
          wrEv s.cfg.chip.reg.irqFlags pi.2 qi ++ rdEv s.cfg.chip.reg.rxNbBytes pn ++ rdEv s.cfg.chip.reg.fifoRxCurrent pc ++
            wrEv s.cfg.chip.reg.fifoAddrPtr pc.2 pw) rest)) := by
  rw [readPacketSeq, clearIrqSeq_step, rd_step, store_regN_saw, rd_step, store_regCur_saw, wr_step, List.cons_append,
    advance_clearIdx_saw]
  rfl

/-- Behind the loop the pointer is zeroed, and `N` becomes `RXLEN` and `RESULT`. -/
theorem run_commit_rxlen {s : State} (h : s.Idle) (i : Option Instr) (w : Work) (evs : List Event) (pz : Byte × Byte)
    (rest : List Reply) :
    run (txn pz ++ rest).length (advance (wrLit s.cfg.chip.reg.fifoAddrPtr 0x00 ++ [.setRxLen, .ret .regN])
        (State.saw { s with busy := true, latch := i } w evs (txn pz ++ rest))) =
      { s.done (w.n.setWidth 32) w (evs ++ wrEv s.cfg.chip.reg.fifoAddrPtr 0x00 pz) rest with rxlen := w.n } := by
  rw [wrLit, wr_step]
  exact run_ret_saw (s := { s with rxlen := w.n }) h i rest.length w _ rest .regN

/-- Settles O47: the flags and the count, the address, the loop over the FIFO, the pointer, and the commit of the length. -/
theorem readPacketFillsBuffer : Obligations.ReadPacketFillsBuffer := by
  unfold Obligations.ReadPacketFillsBuffer
  intro s bs pi qi pn pc pw pz rest h hlen hr
  have hhead := readPacketSeq_step { s with busy := true, latch := some .readPacket } s.work [] pi qi pn pc pw
    (script bs ++ (txn pz ++ rest))
  obtain ⟨w', hn, hloop⟩ := rxLoop_step { s with busy := true, latch := some .readPacket }
    { s.work with rx := pc.2, t := pi.2, n := pn.2, cur := pc.2, idx := 0 } _ bs _ (txn pz ++ rest)
    ((Nat.zero_add _).trans hlen)
  have hend := run_commit_rxlen (s := { s with rxbuf := writeFrom s.rxbuf 0 bs }) h.1 (some .readPacket) w'
  have hrun := ((start_eq_run_saw .readPacket _ hr).trans (hhead.trans hloop)).trans (hend _ pz rest)
  rw [hn] at hrun
  simp only [List.append_assoc] at hrun
  exact ⟨w', (exec_of_ready (i := .readPacket) rfl rfl h).trans (congrArg Host.Outcome.next hrun)⟩

end Sys2Proof.Machine
end

section
/-! `TRANSMIT`, the polls and `READ_PACKET` however their replies come out (44_packet_io.md R161, R163 to R165; O42, O48): a first
part that commits nothing, of any micro-steps but results, and what a run does once it has passed it. -/

namespace Sys2Proof.Machine

/-! ### A first part of a micro-sequence -/

/-- What a run of micro-steps of `A` with `fin` behind them comes to, where `P` holds on the way: it stands at one of them, it
has aborted at one of them, or it has passed them and is as `G` says. -/
inductive ReachedVia (A : MicroOp → Prop) (P : State → Prop) (fin : List MicroOp) (G : State → Prop) : State → Prop
  | stands {t : State} {op : MicroOp} {pre : List MicroOp} (hbusy : t.busy = true) (hupc : t.upc = op :: (pre ++ fin))
      (hA : ∀ o ∈ op :: pre, A o) (hP : P t) : ReachedVia A P fin G t
  | aborts {u : State} {op : MicroOp} {e : Err} (hA : A op) (hr : Raises op e) (hP : P u) : ReachedVia A P fin G (u.abort e)
  | passed {t : State} (hG : G t) : ReachedVia A P fin G t

/-- `G` is kept by every primitive performed. -/
def KeptByPerform (G : State → Prop) : Prop :=
  ∀ (r : Reply) (rs : List Reply) (t : State), G t → answers r t.upc = true → G (perform r { t with replies := rs })

/-- Where `upc` comes to rest, there is a next micro-step. -/
theorem Waits.exists_cons {c : ChipMap} {op : MicroOp} {body : List MicroOp} (h : Waits c op body) :
    ∃ o pre, body = o :: pre := by
  cases h <;> exact ⟨_, _, rfl⟩

section
variable {A : MicroOp → Prop} {P : State → Prop} {fin : List MicroOp} {G : State → Prop} (hk : Kept A P)
  (hret : ∀ r, ¬ A (.ret r)) (hfin : ∀ u t, u.busy = true → P u → Moves fin u t → G t)
include hk hret hfin

/-- A movement from the first part keeps to it. -/
theorem ReachedVia.of_moves {pre : List MicroOp} {s t : State} (hm : Moves (pre ++ fin) s t) (hb : s.busy = true)
    (hA : ∀ o ∈ pre, A o) (hP : P s) : ReachedVia A P fin G t := by
  induction pre generalizing s with
  | nil => exact .passed (hfin s t hb hP hm)
  | cons op pre ih =>
    have hop := hA op (by simp)
    have hpre : ∀ o ∈ pre, A o := fun o ho => hA o (by simp [ho])
    cases hm with
    | returns r => exact absurd hop (hret r)
    | raises _ _ hr => exact .aborts hop hr hP
    | @waits _ body _ _ w hw =>
      obtain ⟨o, body', rfl⟩ := hw.exists_cons
      refine .stands (op := o) (pre := body' ++ pre) hb (List.append_assoc (o :: body') pre fin).symm ?_ (hk.move w _ hP)
      exact List.forall_mem_append (l₁ := o :: body').mpr ⟨hk.closed _ _ _ hw hop, hpre⟩
    | passes hw hm =>
      obtain ⟨hbusy, -, -⟩ := writes_frame hw
      exact ih hm (hbusy.trans hb) hpre (hk.write hw hop hP)

/-- So does a primitive performed, whatever its outcome. -/
theorem ReachedVia.of_perform (hG : KeptByPerform G) {r : Reply} {rs : List Reply} {t : State} (h : ReachedVia A P fin G t)
    (ha : answers r t.upc = true) : ReachedVia A P fin G (perform r { t with replies := rs }) := by
  cases h with
  | @stands t op pre hbusy hupc hA hP =>
    have hP : P { t with replies := rs } := hk.replies rs t.drawn hP
    obtain heq | ⟨op', rest, hupc', hcase⟩ := perform_cases r { t with replies := rs }
    · rw [heq]
      exact .stands hbusy hupc hA hP
    · obtain ⟨rfl, rfl⟩ := List.cons.inj (hupc.symm.trans hupc')
      have hop := hA op (by simp)
      obtain ⟨u, hw, heq⟩ | ⟨ev, e, hr, heq⟩ := hcase
      · obtain ⟨hb, -, -⟩ := writes_frame hw
        rw [heq]
        exact .of_moves hk hret hfin (advance_moves _ u) (hb.trans hbusy) (fun o ho => hA o (by simp [ho]))
          (hk.write hw hop hP)
      · rw [heq]
        exact .aborts hop hr (hk.log ev hP)
  | aborts => cases ha
  | passed h => exact .passed (hG r rs t h ha)

/-- A ready block that accepts such a command comes to it. -/
theorem ReachedVia.of_exec (hG : KeptByPerform G) {i : Instr} {pre : List MicroOp} {s t : State} (hc : isCommand i = true)
    (hw : i.wf s.cfg.widths = true) (h : s.Ready) (hi : microOf s.cfg i = pre ++ fin) (hA : ∀ o ∈ pre, A o)
    (hP : P { s with busy := true, latch := some i }) (he : exec i s = .next t) : ReachedVia A P fin G t := by
  rw [exec_of_ready hc hw h, hi] at he
  cases he
  exact run_keeps (ReachedVia A P fin G) (fun _ _ _ _ ha hr => hr.of_perform hk hret hfin hG ha) _ _
    (.of_moves hk hret hfin (advance_moves _ _) rfl hA hP)

end

/-! ### What comes behind it -/

/-- A movement past an assignment to `MODE` makes it. -/
theorem moves_of_setMode {m : Mode} {rest : List MicroOp} {s t : State} (h : Moves (.setMode m :: rest) s t) :
    Moves rest { s with mode := m } t := by
  cases h with
  | raises _ _ hr => cases hr
  | waits _ _ _ hw => cases hw
  | passes hw hm =>
    cases hw with
    | setMode => exact hm
    | work _ _ hop => cases hop

/-- So does one past the assignment to `RXLEN`. -/
theorem moves_of_setRxLen {rest : List MicroOp} {s t : State} (h : Moves (.setRxLen :: rest) s t) :
    Moves rest { s with rxlen := s.work.n } t := by
  cases h with
  | raises _ _ hr => cases hr
  | waits _ _ _ hw => cases hw
  | passes hw hm =>
    cases hw with
    | setRxLen => exact hm
    | work _ _ hop => cases hop

/-- A movement at a result completes. -/
theorem eq_complete_of_moves_ret {r : ResultSrc} {rest : List MicroOp} {s t : State} (h : Moves (.ret r :: rest) s t) :
    t = s.complete (s.resultOf r) := by
  cases h with
  | returns => rfl
  | raises _ _ hr => cases hr
  | waits _ _ _ hw => cases hw
  | passes hw hm =>
    cases hw with
    | work _ _ hop => cases hop

/-- A movement with no micro-step left completes. -/
theorem eq_complete_of_moves_nil {s t : State} (h : Moves [] s t) : t = s.complete 0 := by
  cases h
  rfl

/-! ### The first parts of the packet commands -/

/-- The micro-steps that commit nothing but `m` to `MODE`, and raise no errors but chip-select and transport faults. -/
def commitsOnly (m : Mode) : MicroOp → Prop
  | .setMode m' => m' = m
  | .pin p _ => p = .cs
  | .recv _ => True
  | .send _ _ => True
  | .delay _ => True
  | .take _ => True
  | .loadTxLen => True
  | .clearIdx => True
  | .nextIdx => True
  | .txLoop => True
  | .rxLoop => True
  | _ => False

/-- `MODE` in `t` is that of `s` or `m`, and `RXLEN` is that of `s`. -/
def CommittedOnly (m : Mode) (s t : State) : Prop := (t.mode = s.mode ∨ t.mode = m) ∧ t.rxlen = s.rxlen

/-- A run of such micro-steps does no more. -/
theorem kept_committedOnly (m : Mode) (s : State) : Kept (commitsOnly m) (CommittedOnly m s) where
  closed c op body hw ho := by
    cases hw with
    | pin p l => simpa using ho
    | recv a => simpa using ho
    | send a src => simpa using ho
    | delay n => simpa using ho
    | txLoop => simp [txBody, wr, commitsOnly]
    | rxLoop => simp [rxBody, rd, commitsOnly]
    | _ => exact ho.elim
  write hw ho h := by
    cases hw with
    | pin p l => cases p <;> exact h
    | take d => cases d <;> exact h
    | setMode m' => exact ⟨.inr ho, h.2⟩
    | setRxLen => exact ho.elim
    | _ => exact h
  move _ _ h := h
  replies _ _ h := h
  log _ h := h
  complete _ h := h
  abort _ _ h := h

/-- The codes of the errors they raise (60_exceptions.md R180). -/
theorem code_of_commitsOnly {m : Mode} {op : MicroOp} {e : Err} (hr : Raises op e) (ho : commitsOnly m op) :
    e.code = 0x01 ∨ e.code = 0x03 := by
  cases hr with
  | pin p l =>
    obtain rfl : p = .cs := ho
    exact .inl rfl
  | recv a => exact .inr rfl
  | send a src => exact .inr rfl
  | _ => exact ho.elim

/-- Bus steps are such micro-steps. -/
theorem commitsOnly_of_isBusStep {op : MicroOp} (m : Mode) (h : isBusStep op = true) : commitsOnly m op := by
  cases op with
  | pin p l =>
    cases p with
    | cs => rfl
    | reset => cases h
  | recv a => trivial
  | send a src => trivial
  | take d => trivial
  | _ => cases h

/-- `t` has ended with success, as `R` says. -/
structure Completed (R : State → Prop) (t : State) : Prop where
  busy : t.busy = false
  upc : t.upc = []
  status : t.status = 0x00
  outcome : R t

/-- There is no primitive to perform there. -/
theorem keptByPerform_completed (R : State → Prop) : KeptByPerform (Completed R) := by
  intro r rs t h ha
  rw [h.upc] at ha
  cases ha

/-- Where what is behind the first part is done at once with success, a command that ended with success is as `R` says, and
any other has committed no more than `m`. -/
theorem ReachedVia.committedOnly {m : Mode} {fin : List MicroOp} {R : State → Prop} {s t : State}
    (h : ReachedVia (commitsOnly m) (CommittedOnly m s) fin (Completed R) t) :
    (t.busy = false ∧ t.status = 0x00 → R t) ∧ (t.busy = true ∨ t.status ≠ 0x00 → CommittedOnly m s t) := by
  cases h with
  | stands hbusy _ _ hP => exact ⟨fun ⟨hidle, _⟩ => absurd (hbusy.symm.trans hidle) nofun, fun _ => hP⟩
  | aborts hA hr hP => exact ⟨fun ⟨_, hok⟩ => absurd hok (code_ne_ok _), fun _ => hP⟩
  | passed hG =>
    obtain ⟨hbusy, -, hstatus, hR⟩ := hG
    refine ⟨fun _ => hR, ?_⟩
    rintro (hb | hne)
    · exact absurd (hbusy.symm.trans hb) nofun
    · exact absurd hstatus hne

/-! ### `READ_PACKET` -/

/-- `READ_PACKET` up to the commit of the length (44_packet_io.md R165). -/
def readPacketBody (c : ChipMap) : List MicroOp :=
  clearIrqSeq c ++ (rd c.reg.rxNbBytes .regN ++ (rd c.reg.fifoRxCurrent .regCur ++ (wr c.reg.fifoAddrPtr .regCur ++
    ([.clearIdx, .rxLoop] ++ wrLit c.reg.fifoAddrPtr 0x00))))

theorem readPacketSeq_eq_append (c : ChipMap) : readPacketSeq c = readPacketBody c ++ [.setRxLen, .ret .regN] := by
  simp [readPacketSeq, readPacketBody]

/-- The commit is done at once, and `RXLEN` and the result are `N`. -/
theorem completed_of_setRxLen {u t : State} (hm : Moves [.setRxLen, .ret .regN] u t) :
    Completed (fun t => t.result = t.rxlen.setWidth 32) t := by
  rw [eq_complete_of_moves_ret (moves_of_setRxLen hm)]
  exact ⟨rfl, rfl, rfl, rfl⟩

/-- Settles O48: everything before the commit of the length leaves `RXLEN`, and the commit ends with success. -/
theorem readPacketCommitsLengthLast : Obligations.ReadPacketCommitsLengthLast := by
  unfold Obligations.ReadPacketCommitsLengthLast
  intro s t h he
  have hbody : ∀ op ∈ readPacketBody s.cfg.chip, commitsOnly s.mode op := by
    simp [readPacketBody, clearIrqSeq, wrLit, wr, rd, commitsOnly]
  have hreached := ReachedVia.of_exec (kept_committedOnly s.mode s) (fun _ => id) (fun _ _ _ _ => completed_of_setRxLen)
    (keptByPerform_completed _) (i := .readPacket) rfl rfl h (readPacketSeq_eq_append _) hbody ⟨.inl rfl, rfl⟩ he
  obtain ⟨hsuccess, hother⟩ := hreached.committedOnly
  exact ⟨hsuccess, fun hend => (hother hend).2⟩

/-! ### `TRANSMIT` and the polls -/

/-- The bus steps of a change of mode. -/
def modeWrites (c : ChipMap) (m : Mode) : List MicroOp := applyHeader c ++ wrLit c.reg.opMode (modeByte c m)

/-- Behind them the assignment is made (42_mode_config.md R121). -/
theorem setModeSeq_eq_modeWrites (c : ChipMap) (m : Mode) : setModeSeq c m = modeWrites c m ++ [.setMode m] :=
  setModeSeq_eq_append c m

theorem modeWrites_isBusStep (c : ChipMap) (m : Mode) : ∀ op ∈ modeWrites c m, isBusStep op = true :=
  List.forall_mem_append.mpr ⟨fieldWrite_isBusStep _ _ _, wrLit_isBusStep _ _⟩

/-- `TRANSMIT` up to the last assignment to `MODE` (44_packet_io.md R161). -/
def transmitFirst (c : ChipMap) : List MicroOp :=
  setModeSeq c .standby ++ (applyHeader c ++ (transmitBody c ++ modeWrites c .transmit))

theorem transmitSeq_eq_first_append (c : ChipMap) : transmitSeq c = transmitFirst c ++ [.setMode .transmit] := by
  simp [transmitSeq_eq_append, transmitFirst, setModeSeq_eq_modeWrites c .transmit]

/-- It commits nothing but Standby. -/
theorem transmitFirst_commitsOnly (c : ChipMap) : ∀ op ∈ transmitFirst c, commitsOnly .standby op := by
  have hbus {ops : List MicroOp} (h : ∀ op ∈ ops, isBusStep op = true) : ∀ op ∈ ops, commitsOnly .standby op :=
    fun op ho => commitsOnly_of_isBusStep _ (h op ho)
  have hbody : ∀ op ∈ transmitBody c, commitsOnly .standby op := by
    simp [transmitBody, clearIrqSeq, wrLit, wr, rd, commitsOnly]
  simp only [transmitFirst, setModeSeq_eq_modeWrites c .standby, List.forall_mem_append]
  exact ⟨⟨hbus (modeWrites_isBusStep c .standby), by simp [commitsOnly]⟩, hbus (fieldWrite_isBusStep _ _ _), hbody,
    hbus (modeWrites_isBusStep c .transmit)⟩

/-- The last assignment is done at once. -/
theorem completed_of_setMode {m : Mode} {u t : State} (hm : Moves [.setMode m] u t) : Completed (fun t => t.mode = m) t := by
  rw [eq_complete_of_moves_nil (moves_of_setMode hm)]
  exact ⟨rfl, rfl, rfl, rfl⟩

/-- The micro-steps of the poll `i` in continuous receive: reads and writes, delays, the loops; the bounded one is
`POLL_IRQ_T`'s alone (R163, R164). -/
def pollStep (i : Instr) : MicroOp → Prop
  | .pin p _ => p = .cs
  | .recv _ => True
  | .send _ _ => True
  | .delay _ => True
  | .take _ => True
  | .clearCnt => True
  | .pollTest => True
  | .pollTestBounded _ => i ≠ .pollIrq
  | .ret _ => True
  | _ => False

/-- `t` is in continuous receive, and a `POLL_IRQ` that has ended there has the status of a success or of a chip-select or
transport fault. -/
def PollReceives (i : Instr) (t : State) : Prop :=
  t.mode = .receiveContinuous ∧ (t.busy = false → i = .pollIrq → t.status ∈ [(0x00 : Byte), 0x01, 0x03])

/-- A run of such micro-steps keeps to it. -/
theorem kept_pollReceives (i : Instr) : Kept (pollStep i) (PollReceives i) where
  closed c op body hw ho := by
    cases hw with
    | pin p l => simpa using ho
    | recv a => simpa using ho
    | send a src => simpa using ho
    | delay n => simpa using ho
    | pollTest => simp [rd, pollStep]
    | pollTestBounded n => simpa [rd, pollStep] using ho
    | _ => exact ho.elim
  write hw ho h := by
    cases hw with
    | pin p l => cases p <;> exact h
    | take d => cases d <;> exact h
    | setMode m => exact ho.elim
    | _ => exact h
  move _ _ h := h
  replies _ _ h := h
  log _ h := h
  complete _ h := ⟨h.1, fun _ _ => by simp⟩
  abort hr ho h := by
    refine ⟨h.1, fun _ hi => ?_⟩
    cases hr with
    | pin p l =>
      obtain rfl : p = .cs := ho
      simp [pinErr, Err.code]
    | recv a => simp [Err.code]
    | send a src => simp [Err.code]
    | pollTestBounded n => exact absurd hi ho
    | _ => exact ho.elim

/-- A poll `i` that has switched to continuous receive. -/
def ReachedPoll (i : Instr) (t : State) : Prop := PollReceives i t ∧ ∀ op ∈ t.upc, pollStep i op

/-- A command of the shape of a poll, however its replies come out: `MODE` is committed by the switch to continuous receive, the
only assignment to it. -/
theorem poll_commits {i : Instr} {tail : List MicroOp} {s t : State} (hc : isCommand i = true)
    (hw : i.wf s.cfg.widths = true) (h : s.Ready)
    (hi : microOf s.cfg i = setModeSeq s.cfg.chip .receiveContinuous ++ tail) (htail : ∀ op ∈ tail, pollStep i op)
    (he : exec i s = .next t) :
    (t.mode = s.mode ∨ t.mode = .receiveContinuous) ∧
    (t.busy = false → t.status ∈ [(0x00 : Byte), 0x05] → t.mode = .receiveContinuous) ∧
    (t.busy = false → i = .pollIrq → t.status ∈ [(0x00 : Byte), 0x01, 0x03]) := by
  have hsplit : microOf s.cfg i = modeWrites s.cfg.chip .receiveContinuous ++ (.setMode .receiveContinuous :: tail) := by
    rw [hi, setModeSeq_eq_modeWrites, List.append_assoc, List.singleton_append]
  have hpast (u v : State) (hb : u.busy = true) (hm : Moves (.setMode .receiveContinuous :: tail) u v) : ReachedPoll i v :=
    (kept_pollReceives i).of_moves (moves_of_setMode hm) htail ⟨rfl, fun hb' => absurd (hb.symm.trans hb') nofun⟩
  have hperform : KeptByPerform (ReachedPoll i) := fun r rs u hu _ =>
    (kept_pollReceives i).of_perform r (s := { u with replies := rs }) hu.2 hu.1
  have hreached := ReachedVia.of_exec (kept_committedOnly .receiveContinuous s) (fun _ => id) (fun u v hb _ => hpast u v hb)
    hperform hc hw h hsplit (fun op ho => commitsOnly_of_isBusStep _ (modeWrites_isBusStep _ _ op ho)) ⟨.inl rfl, rfl⟩ he
  cases hreached with
  | stands hbusy _ _ hP =>
    exact ⟨hP.1, fun hb => absurd (hbusy.symm.trans hb) nofun, fun hb => absurd (hbusy.symm.trans hb) nofun⟩
  | @aborts u _ e hA hr hP =>
    have hcode := code_of_commitsOnly hr hA
    refine ⟨hP.1, fun _ hst => ?_, fun _ _ => List.mem_cons_of_mem _ (by simpa using hcode)⟩
    obtain hcode | hcode := hcode <;> simp [hcode] at hst
  | passed hG =>
    obtain ⟨⟨hmode, hstatus⟩, -⟩ := hG
    exact ⟨.inr hmode, fun _ _ => hmode, hstatus⟩

/-- An operand too wide is illegal (30_encoding.md R75). -/
theorem exec_of_not_wf {i : Instr} {s : State} (hc : isCommand i = true) (h : s.Ready) (hw : ¬ i.wf s.cfg.widths = true) :
    exec i s = .next (s.reject .illegalCommand) := by
  obtain ⟨⟨hb, -, -⟩, -⟩ := h
  simp [exec_command i s hc, hb, hw]

/-- Settles O42: before its last assignment `TRANSMIT` commits nothing but Standby; a poll commits nothing before the switch to
continuous receive, and behind it `MODE` stays. -/
theorem transmitAndPollsCommitMode : Obligations.TransmitAndPollsCommitMode := by
  unfold Obligations.TransmitAndPollsCommitMode
  intro s t h
  refine ⟨fun he => ?_, fun i hi he => ?_⟩
  · have hreached := ReachedVia.of_exec (kept_committedOnly .standby s) (fun _ => id) (fun _ _ _ _ => completed_of_setMode)
      (keptByPerform_completed _) (i := .transmit) rfl rfl h (transmitSeq_eq_first_append _) (transmitFirst_commitsOnly _)
      ⟨.inl rfl, rfl⟩ he
    obtain ⟨hsuccess, hother⟩ := hreached.committedOnly
    exact ⟨hsuccess, fun hend => (hother hend).1⟩
  · obtain rfl | ⟨n, rfl⟩ := hi
    · exact poll_commits rfl rfl h rfl (by simp [packetReadySeq, clearIrqSeq, rd, wr, pollStep]) he
    · by_cases hw : (Instr.pollIrqT n).wf s.cfg.widths = true
      · exact poll_commits rfl hw h rfl (by simp [packetReadySeq, clearIrqSeq, rd, wr, pollStep]) he
      · cases (exec_of_not_wf rfl h hw).symm.trans he
        exact ⟨.inl rfl, fun _ hst => absurd hst (by simp [Err.code]), fun _ hi => nomatch hi⟩

end Sys2Proof.Machine
end

section
/-! Acceptance of a command (30_encoding.md R75, 60_exceptions.md R188, R189, R197): a word that decodes is one the opcode map of
`Safety` admits (O6), a command at a block that is not ready (O7), and a busy block (O8). -/

namespace Sys2Proof.Machine

/-! ### The opcode map -/

/-- The operand bits above the lowest `k` are the must-be-zero bits of an operand of `k` bits. -/
theorem bitsAbove_eq_mbzAbove (k : Nat) : bitsAbove k = mbzAbove k := by
  refine BitVec.eq_of_getLsbD_eq fun i hi => ?_
  have hpos : 0 < 2 ^ min k 24 := Nat.two_pow_pos _
  have hle : 2 ^ min k 24 ≤ 2 ^ 24 := Nat.pow_le_pow_right (by decide) (Nat.min_le_right k 24)
  have hsub : 2 ^ 24 - 2 ^ min k 24 = 2 ^ 24 - (2 ^ min k 24 - 1 + 1) := by omega
  rw [getLsbD_mbzAbove, bitsAbove, BitVec.getLsbD_ofNat, hsub, Nat.testBit_two_pow_sub_succ (by omega),
    Nat.testBit_two_pow_sub_one]
  grind

/-- What the opcode map asks of a word: an assigned opcode, no must-be-zero bit, and for `SET_MODE` an operand up to 4. -/
def Admitted (ws : Widths) (w : Word) : Prop :=
  ∃ mbz, mbzOf ws (opcodeOf w) = some mbz ∧ w &&& mbz = 0 ∧ (opcodeOf w = 0x20#8 → (w.extractLsb' 0 3).toNat ≤ 4)

/-- A row of the map other than `SET_MODE`'s asks no more than the must-be-zero test of its mask. -/
theorem unlessReserved_ok_iff_admitted {ws : Widths} {w : Word} {op : Byte} {mbz : Word} (i : Instr) (hop : opcodeOf w = op)
    (hrow : mbzOf ws op = some mbz) (hne : op ≠ 0x20#8) : (∃ j, unlessReserved w mbz i = .ok j) ↔ Admitted ws w := by
  simp [Admitted, hop, hrow, hne, unlessReserved_eq_ok]

/-- The decoder takes the words that the map admits, row by row. -/
theorem decodeCommand_ok_iff_admitted (ws : Widths) (w : Word) : (∃ i, decodeCommand ws w = .ok i) ↔ Admitted ws w := by
  unfold decodeCommand
  split
  case h_4 hop =>
    have hrow : mbzOf ws 0x20#8 = some (mbzAbove 3) := by rfl
    simp [Admitted, hop, hrow, decodeSetMode_eq_ok]
  case h_28 =>
    have hnone : mbzOf ws (opcodeOf w) = none := by simp_all [mbzOf, opcodeMap, eq_comm (b := opcodeOf w)]
    simp [Admitted, hnone]
  case h_3 hop | h_6 hop | h_23 hop =>
    exact unlessReserved_ok_iff_admitted _ hop (congrArg some (bitsAbove_eq_mbzAbove _)) (by decide)
  all_goals exact unlessReserved_ok_iff_admitted _ ‹_› rfl (by decide)

/-! ### The tests at an idle block -/

/-- Settles O7: the command passes the tests of its operands, and fails that of `LIFE`. -/
theorem notReadyChangesNothingElse : Obligations.NotReadyChangesNothingElse := by
  unfold Obligations.NotReadyChangesNothingElse
  intro i s hw hc hi hb hl
  have hreject : exec i s = .next (s.reject .notReady) := by simp [exec_command i s hc, hb, hw, hi, hl]
  exact hreject

/-- A word that the map does not admit is an illegal command (60_exceptions.md R188). -/
theorem issueWord_of_not_admitted {w : Word} {s : State} (h : ¬ Admitted s.cfg.widths w) :
    issueWord w s = .next (s.reject .illegalCommand) := by
  rw [← decodeCommand_ok_iff_admitted] at h
  unfold issueWord
  split
  · next i hd => exact absurd ⟨i, hd⟩ h
  · rfl

/-- The opcode 0x10 is that of `INIT`. -/
theorem isInit_iff_opcodeOf {ws : Widths} {w : Word} {i : Instr} (h : decodeCommand ws w = .ok i) :
    isInit (some i) = true ↔ opcodeOf w = 0x10 := by
  constructor
  · intro hi
    cases i with
    | init f =>
      obtain ⟨-, henc⟩ := encode_of_decodeCommand h
      cases henc
      exact opcodeOf_append 0x10 f
    | _ => cases hi
  · intro hop
    unfold decodeCommand at h
    rw [hop] at h
    obtain ⟨-, rfl⟩ := unlessReserved_eq_ok.mp h
    rfl

/-- Settles O6: a word that fails one of the first three tests is not admitted by the map; an admitted one decodes, to a
well-formed command with that encoding, which runs if it is `INIT` or the block is ready. -/
theorem acceptanceTestsInOrder : Obligations.AcceptanceTestsInOrder := by
  unfold Obligations.AcceptanceTestsInOrder
  intro s w rest hb hh
  have hstep : step s = issueWord w { s with host := rest } := step_host_of_idle hb hh
  have hillegal (h : ¬ Admitted s.cfg.widths w) : step s = .next { s with host := rest, status := 0x80, result := 0 } :=
    hstep.trans (issueWord_of_not_admitted h)
  have hlegal (h : Admitted s.cfg.widths w) :
      ∃ i, decodeCommand s.cfg.widths w = .ok i ∧ step s = exec i { s with host := rest } := by
    obtain ⟨i, hd⟩ := (decodeCommand_ok_iff_admitted _ _).mpr h
    exact ⟨i, hd, stepRunsIssuedCommand s w rest i hb hh hd⟩
  refine ⟨fun hnone => hillegal ?_, fun mbz hsome hbits => hillegal ?_, fun mbz hsome hbits hop hm => hillegal ?_,
    fun mbz hsome hbits hm hop hl => ?_, fun mbz hsome hbits hm hready => ?_⟩
  · rintro ⟨mbz, hsome, -⟩
    cases hnone.symm.trans hsome
  · rintro ⟨mbz', hsome', hbits', -⟩
    cases hsome.symm.trans hsome'
    exact hbits hbits'
  · rintro ⟨-, -, -, hm'⟩
    exact absurd (hm' hop) (Nat.not_le_of_lt hm)
  · obtain ⟨i, hd, hexec⟩ := hlegal ⟨mbz, hsome, hbits, hm⟩
    have hi : isInit (some i) = false := by
      rw [Bool.eq_false_iff, Ne, isInit_iff_opcodeOf hd]
      exact hop
    obtain ⟨hw, -⟩ := encode_of_decodeCommand hd
    exact hexec.trans (notReadyChangesNothingElse i { s with host := rest } hw (isCommand_of_decodeCommand hd) hi hb hl)
  · obtain ⟨i, hd, hexec⟩ := hlegal ⟨mbz, hsome, hbits, hm⟩
    obtain ⟨hw, henc⟩ := encode_of_decodeCommand hd
    have haccept : isInit (some i) = true ∨ s.life = .ready := hready.imp_left (isInit_iff_opcodeOf hd).mpr
    have hstart : exec i { s with host := rest } =
        .next (State.start { s with host := rest } i (microOf s.cfg i)) := by
      simp [exec_command i _ (isCommand_of_decodeCommand hd), hb, hw, haccept]
    exact ⟨i, microOf s.cfg i, henc, hexec, hexec.trans hstart⟩

/-! ### The busy block -/

/-- A step of the running command leaves the host's list: with the list put back as it is, its answer is the same. -/
theorem resume_keeps_host {s t : State} (h : resume s = .next t) : t.host = s.host := by
  have hsame : Host.Outcome.next t = .next { t with host := s.host } := h.symm.trans (resume_host s.host h)
  injection hsame with ht
  rw [ht]

/-- Settles O8: a command's meaning refuses; while the host waits the step is the running command's; and a step that lets a
primitive go by is the same with the rest of the host's list in place. -/
theorem busyBlockAcceptsNothing : Obligations.BusyBlockAcceptsNothing := by
  unfold Obligations.BusyBlockAcceptsNothing
  refine ⟨fun i s hc hb => ?_, fun s t op rest hb hh hlife hbusy hreset hwait hst => ?_, fun s t rest hb hh hst => ?_⟩
  · simp [exec_command i s hc, hb]
  · have hw : s.HostWaits := by
      intro op' rest' hh'
      cases hh.symm.trans hh'
      exact ⟨hlife, hbusy, hreset, hwait⟩
    rw [step_of_hostWaits s hb hw] at hst
    exact (resume_keeps_host hst).trans hh
  · have hresume : resume { s with host := [] } = .next t := (step_busy { s with host := [] } hb).symm.trans hst
    rw [step_of_wait s rest hb hh]
    exact resume_host (s := { s with host := [] }) rest hresume

end Sys2Proof.Machine
end

section
/-! What ends a command (60_exceptions.md R180 to R184, R187): the step at a primitive that fails (O12), and the values of
`STATUS` that a step can write (O14). -/

namespace Sys2Proof.Machine

/-! ### The failing primitive -/

/-- The state a fault leaves, where the failed primitive has taken no more than its outcome. -/
theorem faulted_of_frame {s u : State} (h : u = { s with replies := u.replies, drawn := u.drawn }) (code : Byte) (e : Event) :
    u.faulted code e =
      { u with
        trace := s.trace ++ [e], status := code, result := 0, busy := false, upc := [], latch := none,
        csShadow := .unknown, life := if isInit s.latch then .failed else s.life } := by
  rw [h]
  rfl

/-- Settles O12: the step at each kind of primitive, where it fails, leaves `State.faulted`, and what a primitive's outcome
takes is replies or free values only. -/
theorem failingPrimitiveAborts : Obligations.FailingPrimitiveAborts := by
  unfold Obligations.FailingPrimitiveAborts
  intro s u ops hb hw
  obtain ⟨hcs, hreset, hrecv, hsend, -⟩ := primitiveStepGoesOnOrAborts s u ops hb hw
  refine ⟨fun l hu ho => ?_, fun l hu ho => ?_, fun a hu ho => ?_, fun a src hu ho => ?_⟩
  · rw [← faulted_of_frame (pinOutcome_frame ho)]
    exact hcs l false hu ho
  · refine (hreset l false hu ho).trans (congrArg Host.Outcome.next ?_)
    rw [if_neg (by decide), faulted_of_frame (pinOutcome_frame ho)]
  · rw [← faulted_of_frame (xferOutcome_frame ho)]
    exact hrecv a none hu ho
  · rw [← faulted_of_frame (xferOutcome_frame ho)]
    exact hsend a src none hu ho

/-! ### The values of `STATUS` -/

/-- A run writes `STATUS` by completion and abort only, and no micro-step raises the reserved error. -/
theorem kept_status_produced : Kept (fun _ => True) (fun s => s.status ∈ producedCodes) where
  closed _ _ _ _ _ _ _ := trivial
  write hw _ h := by
    cases hw with
    | pin p l => cases p <;> exact h
    | take d => cases d <;> exact h
    | _ => exact h
  move _ _ h := h
  replies _ _ h := h
  log _ h := h
  complete _ _ := by simp [producedCodes]
  abort hr _ _ := code_mem_of_raises hr

/-- An instruction leaves a produced code: an error found at decode, or what its run leaves. -/
theorem exec_status_produced {i : Instr} {s t : State} (h : s.status ∈ producedCodes) (he : exec i s = .next t) :
    t.status ∈ producedCodes := by
  cases hc : isCommand i with
  | true =>
    obtain ⟨-, ⟨e, rfl, hne⟩ | ⟨-, -, rfl⟩⟩ := exec_next hc he
    · exact code_mem_producedCodes hne
    · exact kept_status_produced.of_run_advance _ (fun _ _ => trivial) h
  | false =>
    rw [exec_frame i s hc] at he
    cases he
    exact kept_status_produced.of_run_advance 3 (fun _ _ => trivial) h

/-- So does one step of a running command. -/
theorem resume_status_produced {s t : State} (h : s.status ∈ producedCodes) (he : resume s = .next t) :
    t.status ∈ producedCodes := by
  obtain ⟨r, rs, d, rfl⟩ | ⟨f, rest, i, -, -, hexec⟩ | rfl := resume_cases he
  · exact (kept_status_produced.of_perform r (s := { s with replies := rs, drawn := d }) (fun _ _ => trivial) h).1
  · exact exec_status_produced (s := { s with upc := rest }) h hexec
  · exact (kept_status_produced.of_advance (fun _ _ => trivial) h).1

/-- So does a host operation. -/
theorem hostOp_status_produced {op : HostOp} {s t : State} (h : s.status ∈ producedCodes) (he : hostOp op s = .next t) :
    t.status ∈ producedCodes := by
  cases op with
  | issue w =>
    simp only [hostOp, issueWord] at he
    split at he
    · exact exec_status_produced h he
    · cases he
      exact code_mem_producedCodes (e := .illegalCommand) (by simp)
  | writeTx i b =>
    simp only [hostOp, hostWriteTx] at he
    split at he <;> cases he
    exact h
  | writeTxLen b => cases he; exact h
  | readReg r => cases he; exact h
  | readBuf which i =>
    simp only [hostOp, hostReadBuf] at he
    split at he
    · cases which <;> (cases he; exact h)
    · cases he
  | blockReset => cases he; exact (by decide : (0x00 : Byte) ∈ producedCodes)
  | wait =>
    simp only [hostOp] at he
    split at he
    · exact resume_status_produced h he
    · cases he; exact h

/-- What a step that answers a next state can do: rest, go on with the running command, or take a host operation. -/
theorem step_cases {s t : State} (h : step s = .next t) :
    t = s ∨ resume s = .next t ∨ ∃ op rest, s.host = op :: rest ∧ hostOp op { s with host := rest } = .next t := by
  obtain hb | hb := Bool.eq_false_or_eq_true s.busy
  · rw [step_busy s hb] at h
    split at h
    · exact .inr (.inl h)
    · next op rest hh =>
      split at h
      · exact .inr (.inr ⟨op, rest, hh, h⟩)
      · exact .inr (.inl h)
  · rw [step_idle s hb] at h
    split at h
    · cases h; exact .inl rfl
    · next op rest hh => exact .inr (.inr ⟨op, rest, hh, h⟩)

/-- Settles O14: rest, a step of the running command and a host operation each leave a produced code. -/
theorem statusStaysProduced : Obligations.StatusStaysProduced := by
  unfold Obligations.StatusStaysProduced
  intro s t h ht
  obtain rfl | hresume | ⟨op, rest, -, hop⟩ := step_cases ht
  · exact h
  · exact resume_status_produced h hresume
  · exact hostOp_status_produced (s := { s with host := rest }) h hop

end Sys2Proof.Machine
end

section
/-! The errors a test of a byte read raises (60_exceptions.md R185, R190): the version byte of `INIT` (O25), and the bandwidth
index of the setters that end with `UpdateLdo` (O35). -/

namespace Sys2Proof.Machine

/-- A version byte that differs aborts an accepted `INIT` after the version read, before any configuration. -/
theorem start_init_mismatch {s : State} (f : BitVec 24) {p : Byte × Byte} {rest : List Reply}
    (hp : p.2 ≠ s.cfg.chip.versionExpected) (hr : s.replies = pulseScript ++ (txn p ++ rest)) :
    s.start (.init f) (initSeq s.cfg.chip f) =
      ((s.pulsed f).saw { s.work with rx := p.2, t := p.2 } (rdEv s.cfg.chip.reg.version p) rest).abort
        (.versionMismatch p.2) := by
  rw [start_init_pulse f hr, rd_step, store_regT_saw]
  exact (congrArg (run _) (if_neg hp)).trans (run_abort _ _ _)

/-- Settles O25: an idle block accepts `INIT`, which aborts after the pulse and one read, with `LIFE` Failed. -/
theorem initVersionMismatchFails : Obligations.InitVersionMismatchFails := by
  unfold Obligations.InitVersionMismatchFails
  intro s f p rest h hf hp hr
  refine ⟨{ s.work with rx := p.2, t := p.2 }, ?_⟩
  rw [exec_init_of_idle h hf, start_init_mismatch f hp hr]
  obtain ⟨hbusy, hupc, hlatch⟩ := h
  simp [State.pulsed, State.resetting, State.saw, State.abort, State.done, Err.code, Err.info, csAfter, rstAfter, Err.isLink,
    lifeAfter, isInit, pulseEvents, rdEv, hbusy, hupc, hlatch]

/-- `UpdateLdo` where the table has no such index ends after the first of its two reads (42_mode_config.md R129, R130). -/
theorem updateLdo_step_unknown (s : State) (w : Work) (evs : List Event) (c : ChipMap) {p : Byte × Byte} (ops : List MicroOp)
    (rest : List Reply) (hp : 8 < (p.2.extractLsb' 4 4).toNat) :
    run (txn p ++ rest).length (advance (updateLdo c ++ ops) (s.saw w evs (txn p ++ rest))) =
      (s.saw { w with rx := p.2, t := p.2 } (evs ++ rdEv c.reg.mc1 p) rest).abort (.bandwidthUnknown (p.2 >>> 4)) := by
  rw [updateLdo, List.append_assoc, readBwHz_step_unknown _ _ _ _ _ _ hp]

/-- A ready block that has the answers of a command's field writes and then reads an unknown index in the `UpdateLdo` behind
them ends the command with `BandwidthUnknown`. -/
theorem exec_of_performs_updateLdo_unknown {i : Instr} {s : State} {ops : List MicroOp} {ts : List FieldTriple}
    {qs : List (Byte × Byte)} {p : Byte × Byte} {rest : List Reply} (hc : isCommand i = true)
    (hinit : isInit (some i) = false) (hw : i.wf s.cfg.widths = true) (h : s.Ready)
    (hi : microOf s.cfg i = ops ++ updateLdo s.cfg.chip) (hp : ∀ u, Performs ops u u ts) (hqs : qs.length = fieldTxns ts)
    (hindex : 8 < (p.2.extractLsb' 4 4).toNat) (hr : s.replies = script qs ++ (txn p ++ rest)) :
    ∃ w, exec i s = .next (s.doneErr 0x82 ((p.2.extractLsb' 4 4).setWidth 32) w
      (fieldEvents ts qs ++ rdEv s.cfg.chip.reg.mc1 p) rest) := by
  obtain ⟨w, hwrites⟩ := hp { s with busy := true, latch := some i } s.work [] qs (txn p ++ rest) (updateLdo s.cfg.chip) hqs
  have hread := updateLdo_step_unknown { s with busy := true, latch := some i } w (fieldEvents ts qs) s.cfg.chip [] rest hindex
  rw [List.append_nil, abort_bandwidthUnknown_saw h.1 hinit, setWidth_ushiftRight_four] at hread
  refine ⟨{ w with rx := p.2, t := p.2 }, ?_⟩
  rw [exec_of_ready hc hw h, start_eq_run_saw i _ hr, hi, hwrites, List.nil_append, hread]

/-- Settles O35: the setters' own field writes, then `UpdateLdo` at an unknown index. -/
theorem settersReportUnknownBandwidth : Obligations.SettersReportUnknownBandwidth := by
  unfold Obligations.SettersReportUnknownBandwidth
  intro s x f d1 d2 r1 w1 pb rest h hindex
  refine ⟨fun hr => ?_, fun hr => ?_⟩
  · have hp (u : State) := (performs_wrLit u s.cfg.chip.reg.detectOpt (detection x).1).append
      ((performs_wrLit u s.cfg.chip.reg.detectThr (detection x).2).append
        (performs_fieldWrite_lit u s.cfg.chip.reg.mc2 0xF0 (spreadingField x)))
    obtain ⟨w, hexec⟩ := exec_of_performs_updateLdo_unknown (i := .setSf x) (qs := [d1, d2, r1, w1]) rfl rfl rfl h
      (by simp [microOf, setSfSeq]) hp rfl hindex hr
    refine ⟨w, hexec.trans ?_⟩
    simp [fieldEvents, detection_eq, spreadingField, spreadingOf]
  · have hp (u : State) := performs_fieldWrite_lit u s.cfg.chip.reg.mc1 0xF0 (bwField f)
    obtain ⟨w, hexec⟩ := exec_of_performs_updateLdo_unknown (i := .setBw f) (qs := [r1, w1]) rfl rfl rfl h rfl hp rfl hindex hr
    refine ⟨w, hexec.trans ?_⟩
    simp [fieldEvents, bwField]

end Sys2Proof.Machine
end

section
/-! `POLL_IRQ` never gives up (O44, 70_reset_and_hazards.md R219), and the values reset leaves (O19, R210). -/

namespace Sys2Proof.Machine

/-- Where the replies run out at the status read, the block waits there. -/
theorem ReachesStatusRead.exec_waits {s : State} {i : Instr} {test : MicroOp} {w : Work} {evs : List Event}
    (hs : ReachesStatusRead s i test w evs []) (hc : isCommand i = true) (hw : i.wf s.cfg.widths = true) (h : s.Ready) :
    exec i s = .next { (s.receiving i).saw w evs [] with
      upc := rd s.cfg.chip.reg.irqFlags .regT ++ test :: (packetReadySeq s.cfg.chip ++ [.ret .regN]) } := by
  rw [exec_of_ready hc hw h, hs]
  rfl

/-- Settles O44: a read that finds the bit clear leads back to the status read, however many there are. -/
theorem pollIrqNeverGivesUp : Obligations.PollIrqNeverGivesUp := by
  unfold Obligations.PollIrqNeverGivesUp
  intro s ps cs h hps hclear hr
  rw [← List.append_nil (pollScript cs)] at hr
  obtain ⟨w, hstart⟩ := reachesStatusRead_pollIrq hps hr
  obtain ⟨w', -, hread⟩ := hstart.pollScript loopsBack_pollTest hclear trivial
  exact ⟨_, _, hread.exec_waits rfl rfl h, rfl, rfl, rfl, rfl, rfl, rfl, rfl⟩

/-- Settles O19: `State.reset` gives each of these registers and parameters its value outright. -/
theorem resetLeavesGivenValues : Obligations.ResetLeavesGivenValues := by
  unfold Obligations.ResetLeavesGivenValues
  exact ⟨rfl, rfl, rfl, rfl, rfl, rfl, rfl, rfl, rfl, rfl, rfl⟩

end Sys2Proof.Machine
end

section
/-! The bus frames as transactions of their own (20_memory.md R43, R44; O9, O10): the direction bit and the address of a frame's
first byte, what one primitive of a frame leaves at a success and at a fault (R47), and block reset from any state (O20, R210). -/

namespace Sys2Proof.Machine

/-! ### The first byte of a frame (30_encoding.md R70) -/

/-- A byte made of a direction bit and an address gives both back. -/
theorem direction_address_fields (b : BitVec 1) (a : RegAddr) :
    (b ++ a).getLsbD 7 = (b == 1#1) ∧ (b ++ a).extractLsb' 0 7 = a :=
  ⟨by rw [BitVec.getLsbD_eq_extractLsb', BitVec.extractLsb'_append_eq_left], BitVec.extractLsb'_append_eq_right⟩

/-! ### One primitive of a transaction -/

/-- A pin operation on chip-select that succeeds is one event and sets `CS_SHADOW`. -/
theorem run_cs_success (n : Nat) {s : State} (l : Level) (ops : List MicroOp) {rs : List Reply}
    (hr : s.replies = .pin true :: rs) :
    run (n + 1) (advance (.pin .cs l :: ops) s) =
      run n (advance ops { s with csShadow := l.shadow, replies := rs, trace := s.trace ++ [.pin .cs l true] }) := by
  rw [run_pin n s .cs l true ops rs hr, ← advance_upc ops _ (.pin .cs l :: ops)]
  rfl

/-- The transfer of a read that succeeds is one event and keeps the second byte received. -/
theorem run_recv_success (n : Nat) {s : State} (a : RegAddr) {p : Byte × Byte} (ops : List MicroOp) {rs : List Reply}
    (hr : s.replies = .xfer (some p) :: rs) :
    run (n + 1) (advance (.recv a :: ops) s) =
      run n (advance ops { s with
        replies := rs
        work := { s.work with rx := p.2 }
        trace := s.trace ++ [.xfer (readHeader a) 0x00 (some p)] }) := by
  rw [run_recv n s a (some p) ops rs hr, ← advance_upc ops _ (.recv a :: ops)]
  rfl

/-- The transfer of a write that succeeds is one event. -/
theorem run_send_success (n : Nat) {s : State} (a : RegAddr) (src : ByteSrc) {p : Byte × Byte} (ops : List MicroOp)
    {rs : List Reply} (hr : s.replies = .xfer (some p) :: rs) :
    run (n + 1) (advance (.send a src :: ops) s) =
      run n (advance ops { s with
        replies := rs
        trace := s.trace ++ [.xfer (writeHeader a) (s.byteOf src) (some p)] }) := by
  rw [run_send n s a src (some p) ops rs hr, ← advance_upc ops _ (.send a src :: ops)]
  rfl

/-- A pin operation on chip-select that fails ends the run with ChipSelectPinFault. -/
theorem run_cs_fault (n : Nat) {s : State} (l : Level) (ops : List MicroOp) {rs : List Reply}
    (hr : s.replies = .pin false :: rs) :
    run (n + 1) (advance (.pin .cs l :: ops) s) = State.faulted { s with replies := rs } 0x01 (.pin .cs l false) := by
  rw [run_pin n s .cs l false ops rs hr]
  exact run_abort n _ _

/-- The transfer of a read that fails ends the run with BusTransportFault. -/
theorem run_recv_fault (n : Nat) {s : State} (a : RegAddr) (ops : List MicroOp) {rs : List Reply}
    (hr : s.replies = .xfer none :: rs) :
    run (n + 1) (advance (.recv a :: ops) s) =
      State.faulted { s with replies := rs } 0x03 (.xfer (readHeader a) 0x00 none) := by
  rw [run_recv n s a none ops rs hr]
  exact run_abort n _ _

/-- The transfer of a write that fails ends the run with BusTransportFault. -/
theorem run_send_fault (n : Nat) {s : State} (a : RegAddr) (src : ByteSrc) (ops : List MicroOp) {rs : List Reply}
    (hr : s.replies = .xfer none :: rs) :
    run (n + 1) (advance (.send a src :: ops) s) =
      State.faulted { s with replies := rs } 0x03 (.xfer (writeHeader a) (s.byteOf src) none) := by
  rw [run_send n s a src none ops rs hr]
  exact run_abort n _ _

/-! ### The two frames -/

/-- The read frame is `RD(a)` with its value in `T`, before the rest of the micro-sequence. -/
theorem exec_busReadFrame (a : RegAddr) (s : State) :
    exec (.busReadFrame a) s = .next (run 3 (advance (rd a .regT ++ s.upc) { s with busy := true })) :=
  exec_frame (.busReadFrame a) s rfl

/-- The write frame is `WR(a, d)`, before the rest of the micro-sequence. -/
theorem exec_busWriteFrame (a : RegAddr) (d : Byte) (s : State) :
    exec (.busWriteFrame a d) s = .next (run 3 (advance (wrLit a d ++ s.upc) { s with busy := true })) :=
  exec_frame (.busWriteFrame a d) s rfl

/-- Settles O9: `RD(a)` as a whole at a success, and its primitives one by one up to the one that fails. -/
theorem readTransaction : Obligations.ReadTransaction := by
  unfold Obligations.ReadTransaction
  intro s a rest p
  obtain ⟨hdir, haddr⟩ := direction_address_fields 0#1 a
  rw [← readHeader_eq] at hdir haddr
  rw [exec_busReadFrame]
  refine ⟨hdir, haddr, fun hr => ?_, fun hr => ?_, fun hr => ?_, fun hr => ?_⟩
  · rw [run_rd 3 { s with busy := true } a .regT p s.upc rest (Nat.le_refl 3) hr]
    rfl
  · rw [rd, List.cons_append, run_cs_fault 2 (s := { s with busy := true }) .low _ hr]
    rfl
  · rw [rd, List.cons_append, run_cs_success 2 (s := { s with busy := true }) .low _ hr, List.cons_append,
      run_recv_fault 1 a _ (by rfl)]
    rfl
  · rw [rd, List.cons_append, run_cs_success 2 (s := { s with busy := true }) .low _ hr, List.cons_append,
      run_recv_success 1 a _ (by rfl), List.cons_append, run_cs_fault 0 .high _ (by rfl)]
    simp only [State.faulted, List.append_assoc, List.cons_append, List.nil_append]

/-- Settles O10: `WR(a, d)` as a whole at a success, and its primitives one by one up to the one that fails. -/
theorem writeTransaction : Obligations.WriteTransaction := by
  unfold Obligations.WriteTransaction
  intro s a d rest p
  obtain ⟨hdir, haddr⟩ := direction_address_fields 1#1 a
  rw [← writeHeader_eq] at hdir haddr
  rw [exec_busWriteFrame]
  refine ⟨hdir, haddr, fun hr => ?_, fun hr => ?_, fun hr => ?_, fun hr => ?_⟩
  · rw [wrLit, run_wr 3 { s with busy := true } a _ p s.upc rest (Nat.le_refl 3) hr]
    rfl
  · rw [wrLit, wr, List.cons_append, run_cs_fault 2 (s := { s with busy := true }) .low _ hr]
    rfl
  · rw [wrLit, wr, List.cons_append, run_cs_success 2 (s := { s with busy := true }) .low _ hr, List.cons_append,
      run_send_fault 1 a _ _ (by rfl)]
    rfl
  · rw [wrLit, wr, List.cons_append, run_cs_success 2 (s := { s with busy := true }) .low _ hr, List.cons_append,
      run_send_success 1 a _ _ (by rfl), List.cons_append, run_cs_fault 0 .high _ (by rfl)]
    simp only [State.faulted, State.byteOf, State.fieldVal, List.append_assoc, List.cons_append, List.nil_append]

/-! ### Block reset -/

/-- Settles O20: block reset is taken at once, busy or idle, and leaves `State.blockReset`. -/
theorem blockResetAbandonsCommand : Obligations.BlockResetAbandonsCommand := by
  unfold Obligations.BlockResetAbandonsCommand
  intro s rest hh
  exact ⟨State.blockReset { s with host := rest }, step_host_of_allowed rfl hh, rfl, rfl, rfl, rfl, rfl, rfl, rfl, rfl, rfl,
    rfl, rfl, rfl⟩

end Sys2Proof.Machine
end
